-- ==== Sys2Proof/Word.lean ====
section
/-! DEFINITION. The word types of the engine (spec/00_scope.md rules R9, R11): a byte is 8 bits, a `u32` is 32 bits,
a command word is 36 bits. Byte strings are lists of bytes (rule R12). -/

namespace Sys2Proof

/-- `u8` of rule R11: 8 bits, bit 0 the least significant. -/
abbrev Byte := BitVec 8

/-- `u32` of rule R11: 32 bits, bit 0 the least significant. -/
abbrev Word := BitVec 32

/-- A command word, 36 bits (spec/30_encoding.md rule R100). -/
abbrev CmdWord := BitVec 36

end Sys2Proof
end

