-- ==== Sys2Proof/Syntax.lean ====
section
/-! DEFINITION. The commands of the engine: one constructor per row of spec/opcode_table.json
(spec/30_encoding.md rules R100 to R102). Every row has the one format `C`: a 4-bit `op` and a 32-bit `arg`. -/

namespace Sys2Proof

/-- A command. Each constructor keeps the word's `arg` field, so that a command word and a command carry the same
information; only `CT.GET` gives `arg` a meaning (rule R100). -/
inductive Instr where
  /-- `NOP`, `op = 0x0` (rule R214). -/
  | nop (arg : Word)
  /-- `CRC.CLR`, `op = 0x1` (rule R127). -/
  | crcClr (arg : Word)
  /-- `CRC.UPD`, `op = 0x2` (rule R128). -/
  | crcUpd (arg : Word)
  /-- `TC.PARSE`, `op = 0x3` (rule R148). -/
  | tcParse (arg : Word)
  /-- `TC.PARSES`, `op = 0x4` (rule R149). -/
  | tcParses (arg : Word)
  /-- `CH.NEW`, `op = 0x5` (rule R163). -/
  | chNew (arg : Word)
  /-- `CH.PARSE`, `op = 0x6` (rule R165). -/
  | chParse (arg : Word)
  /-- `CH.SER`, `op = 0x7` (rule R168). -/
  | chSer (arg : Word)
  /-- `CT.PARSE`, `op = 0x8` (rule R182). -/
  | ctParse (arg : Word)
  /-- `CT.APPEND`, `op = 0x9` (rule R186). -/
  | ctAppend (arg : Word)
  /-- `CT.FIND`, `op = 0xA` (rule R189). -/
  | ctFind (arg : Word)
  /-- `CT.REMOVE`, `op = 0xB` (rule R192). -/
  | ctRemove (arg : Word)
  /-- `CT.GET`, `op = 0xC` (rule R195); `arg` is the chunk index. -/
  | ctGet (arg : Word)
  /-- `CT.SER`, `op = 0xD` (rule R198). -/
  | ctSer (arg : Word)
  /-- Reserved opcode `0xE` (rules R102, R215). -/
  | reservedE (arg : Word)
  /-- Reserved opcode `0xF` (rules R102, R215). -/
  | reservedF (arg : Word)
  deriving DecidableEq, Repr

/-- The command's name as spec/opcode_table.json spells it (rule R101). -/
def Instr.mnemonic : Instr → String
  | .nop _ => "NOP"
  | .crcClr _ => "CRC.CLR"
  | .crcUpd _ => "CRC.UPD"
  | .tcParse _ => "TC.PARSE"
  | .tcParses _ => "TC.PARSES"
  | .chNew _ => "CH.NEW"
  | .chParse _ => "CH.PARSE"
  | .chSer _ => "CH.SER"
  | .ctParse _ => "CT.PARSE"
  | .ctAppend _ => "CT.APPEND"
  | .ctFind _ => "CT.FIND"
  | .ctRemove _ => "CT.REMOVE"
  | .ctGet _ => "CT.GET"
  | .ctSer _ => "CT.SER"
  | .reservedE _ => "RESERVED.E"
  | .reservedF _ => "RESERVED.F"

/-- The `arg` field, bits 31 to 0 of the command word (rule R100). -/
def Instr.arg : Instr → Word
  | .nop a | .crcClr a | .crcUpd a | .tcParse a | .tcParses a | .chNew a | .chParse a | .chSer a
  | .ctParse a | .ctAppend a | .ctFind a | .ctRemove a | .ctGet a | .ctSer a | .reservedE a | .reservedF a => a

/-- The two rows of the table that are reserved opcodes (rule R102). -/
def Instr.isReserved : Instr → Bool
  | .reservedE _ | .reservedF _ => true
  | .nop _ | .crcClr _ | .crcUpd _ | .tcParse _ | .tcParses _ | .chNew _ | .chParse _ | .chSer _
  | .ctParse _ | .ctAppend _ | .ctFind _ | .ctRemove _ | .ctGet _ | .ctSer _ => false

/-- `CT.GET` is the one command that uses `arg` (rule R100). -/
def Instr.usesArg : Instr → Bool
  | .ctGet _ => true
  | .nop _ | .crcClr _ | .crcUpd _ | .tcParse _ | .tcParses _ | .chNew _ | .chParse _ | .chSer _
  | .ctParse _ | .ctAppend _ | .ctFind _ | .ctRemove _ | .ctSer _ | .reservedE _ | .reservedF _ => false

end Sys2Proof
end

