-- ==== Sys2Proof/WellFormed.lean ====
section
/-! DEFINITION. Which commands a program may write (spec/30_encoding.md rules R102, R104). The machine itself runs EVERY
command word (rule R103), well formed or not: nothing of Machine/ looks at this predicate, and no statement about what a
command does assumes it. -/

namespace Sys2Proof

/-- Rule R102: the names of the reserved rows "are not mnemonics a program may write". -/
def Instr.writable (i : Instr) : Bool := !i.isReserved

/-- Rule R104: "A command with no `<arg>` is encoded with `arg = 0`", and only `CT.GET` has an `<arg>`. -/
def Instr.argCanonical (i : Instr) : Bool := i.usesArg || i.arg == 0#32

/-- A command as the notation of rule R104 writes it. -/
def Instr.wf (i : Instr) : Bool := i.writable && i.argCanonical

end Sys2Proof
end

