-- ==== Sys2Proof/Decode.lean ====
section
/-! DEFINITION. The command word (spec/30_encoding.md rules R100 to R103): decoder, encoder, and the opcode map as rows.
Decoding is total (rule R103): all 16 values of `op` have a row and `arg` never makes a word illegal. What can be
refused, by name, is a NUMBER that does not fit the 36-bit command word. -/

namespace Sys2Proof

/-- Why a number is not a command word. -/
inductive DecodeError where
  /-- The number has a bit above bit 35 (rule R100: a command is a 36-bit word). -/
  | widerThanCommandWord
  deriving DecidableEq, Repr

/-- Field `arg`, bits 31 to 0 (rule R100). -/
def argField (w : CmdWord) : Word := w.extractLsb' 0 32

/-- Field `op`, bits 35 to 32 (rule R100). -/
def opField (w : CmdWord) : BitVec 4 := w.extractLsb' 32 4

/-- The opcode map of rule R101, read off the four `op` bits 35, 34, 33, 32 (the "encoding" column of
spec/opcode_table.json). -/
def decode (w : CmdWord) : Instr :=
  match w.getLsbD 35, w.getLsbD 34, w.getLsbD 33, w.getLsbD 32 with
  | false, false, false, false => .nop (argField w)
  | false, false, false, true  => .crcClr (argField w)
  | false, false, true,  false => .crcUpd (argField w)
  | false, false, true,  true  => .tcParse (argField w)
  | false, true,  false, false => .tcParses (argField w)
  | false, true,  false, true  => .chNew (argField w)
  | false, true,  true,  false => .chParse (argField w)
  | false, true,  true,  true  => .chSer (argField w)
  | true,  false, false, false => .ctParse (argField w)
  | true,  false, false, true  => .ctAppend (argField w)
  | true,  false, true,  false => .ctFind (argField w)
  | true,  false, true,  true  => .ctRemove (argField w)
  | true,  true,  false, false => .ctGet (argField w)
  | true,  true,  false, true  => .ctSer (argField w)
  | true,  true,  true,  false => .reservedE (argField w)
  | true,  true,  true,  true  => .reservedF (argField w)

/-- The decoder on numbers: total, and a number wider than a command word is refused by name. -/
def decodeNumber (n : Nat) : Except DecodeError Instr :=
  if n < 2 ^ 36 then .ok (decode (BitVec.ofNat 36 n)) else .error .widerThanCommandWord

/-- The `op` value of a command (rule R101). -/
def opcodeOf : Instr → BitVec 4
  | .nop _ => 0x0#4
  | .crcClr _ => 0x1#4
  | .crcUpd _ => 0x2#4
  | .tcParse _ => 0x3#4
  | .tcParses _ => 0x4#4
  | .chNew _ => 0x5#4
  | .chParse _ => 0x6#4
  | .chSer _ => 0x7#4
  | .ctParse _ => 0x8#4
  | .ctAppend _ => 0x9#4
  | .ctFind _ => 0xA#4
  | .ctRemove _ => 0xB#4
  | .ctGet _ => 0xC#4
  | .ctSer _ => 0xD#4
  | .reservedE _ => 0xE#4
  | .reservedF _ => 0xF#4

/-- The command word of a command: `op` in bits 35 to 32, `arg` in bits 31 to 0 (rule R100). -/
def encode (i : Instr) : CmdWord := opcodeOf i ++ i.arg

/-- The rows of spec/opcode_table.json: mnemonic, match, mask (rule R101: the mask is `0xF00000000` for every row). -/
def opcodeRows : List (String × CmdWord × CmdWord) :=
  [("NOP", 0x000000000#36, 0xF00000000#36), ("CRC.CLR", 0x100000000#36, 0xF00000000#36),
   ("CRC.UPD", 0x200000000#36, 0xF00000000#36), ("TC.PARSE", 0x300000000#36, 0xF00000000#36)] ++
  [("TC.PARSES", 0x400000000#36, 0xF00000000#36), ("CH.NEW", 0x500000000#36, 0xF00000000#36),
   ("CH.PARSE", 0x600000000#36, 0xF00000000#36), ("CH.SER", 0x700000000#36, 0xF00000000#36)] ++
  [("CT.PARSE", 0x800000000#36, 0xF00000000#36), ("CT.APPEND", 0x900000000#36, 0xF00000000#36),
   ("CT.FIND", 0xA00000000#36, 0xF00000000#36), ("CT.REMOVE", 0xB00000000#36, 0xF00000000#36)] ++
  [("CT.GET", 0xC00000000#36, 0xF00000000#36), ("CT.SER", 0xD00000000#36, 0xF00000000#36),
   ("RESERVED.E", 0xE00000000#36, 0xF00000000#36), ("RESERVED.F", 0xF00000000#36, 0xF00000000#36)]

/-- A word under a row's mask equals the row's match. -/
def rowMatches (w : CmdWord) (row : String × CmdWord × CmdWord) : Bool := w &&& row.2.2 == row.2.1

/-- The instruction the decoder reads from the table's bits: `w` cut to `nbits` bits is the one command word (bit 0 of
the number is bit 0 of the word); `none` where the number does not fit 36 bits. -/
def decodeTableWord (nbits w : Nat) : Option Instr := (decodeNumber (w % 2 ^ nbits)).toOption

end Sys2Proof
end

