-- ==== Sys2Proof/Config.lean ====
section
/-! DEFINITION. The implementation parameters of an engine (spec/00_scope.md rule R8, spec/92_eei_decisions.md "OPEN
parameters"). They are left OPEN by the spec, so they are data: every claim about the machine is made for every value of
them. State carries one `Config` (DESIGN CHOICE, log entry 3), fixed for the life of an engine (rule R40). -/

namespace Sys2Proof

/-- A capacity of rule R8: a natural number, or ∞. -/
inductive Cap where
  | finite (n : Nat)
  | unbounded
  deriving DecidableEq, Repr

/-- A register width: a number of bits, or unbounded naturals (rule R8 `AW`, rule R31 `NCHUNKS`). -/
inductive Width where
  | bits (n : Nat)
  | unbounded
  deriving DecidableEq, Repr

/-- The parameter record of rules R8 and R40. -/
structure Config where
  /-- `CAP_BUF`: most bytes `IB` can hold, and most bytes `OB` can hold. -/
  capBuf : Cap
  /-- `CAP_DATA`: most data bytes in one chunk held in `W` or in the store. -/
  capData : Nat
  /-- `CAP_CHUNKS`: most chunks in the store. -/
  capChunks : Cap
  /-- `CAP_STORE`: most data bytes summed over the store. -/
  capStore : Cap
  /-- `AW`: width of `CUR`, `IBLEN`, `OBLEN`. -/
  aw : Width
  deriving DecidableEq, Repr

/-- Rule R8's document-faithful instance: no command is ever refused for capacity. -/
def Config.docFaithful : Config where
  capBuf := .unbounded
  capData := 2 ^ 32 - 1
  capChunks := .unbounded
  capStore := .unbounded
  aw := .unbounded

/-- Rule R8's ranges: `CAP_BUF ≥ 12`, `CAP_DATA ≤ 2^32−1`, `2^AW > CAP_BUF`, `AW` unbounded only when `CAP_BUF = ∞`. -/
def Config.wf (c : Config) : Bool :=
  decide (c.capData ≤ 2 ^ 32 - 1) &&
  match c.capBuf, c.aw with
  | .finite n, .bits a => decide (12 ≤ n) && decide (n < 2 ^ a)
  | .unbounded, .unbounded => true
  | .finite _, .unbounded => false
  | .unbounded, .bits _ => false

/-- What the 32- or `AW`-bit port `reg_data` shows of an `NCHUNKS` that does not fit it (spec/44_system.md rule R216 gives the
port a width, spec/10_state.md rule R31 leaves `NCHUNKS` unbounded, and no rule says what is then shown). A free value: it has
no body, so nothing can be proved of it (DESIGN CHOICE, log entry 25). -/
opaque Config.freeRegData : Config → Nat → Nat

end Sys2Proof
end

