-- ==== Sys2Proof/Machine/Constants.lean ====
section
/-! DEFINITION. The constants of spec/00_scope.md rule R10. The document names them without values; the spec supplies the
values from general knowledge (spec/93_implementation_defined.md G1 to G4), so each stands in one line here (UNVERIFIED, log entry 12). -/

namespace Sys2Proof.Machine

/-- `SIG`, the 8 signature bytes (rules R10, R80). -/
def sig : List Byte := [0x89#8, 0x50#8, 0x4E#8, 0x47#8, 0x0D#8, 0x0A#8, 0x1A#8, 0x0A#8]

/-- `POLY_R`, the bit-reversed generator polynomial (rules R10, R120). -/
def polyR : Word := 0xEDB88320#32

/-- `CRC_INIT` (rules R10, R120). -/
def crcInit : Word := 0xFFFFFFFF#32

/-- `CRC_XOROUT` (rules R10, R120). -/
def crcXorOut : Word := 0xFFFFFFFF#32

end Sys2Proof.Machine
end

