-- ==== Sys2Proof/Machine/State.lean ====
section
/-! DEFINITION. The state of the engine (spec/10_state.md rule R20), plain data, and the reset state (rule R39). -/

namespace Sys2Proof.Machine

/-- The four bytes of a type code as they stand on the wire, `b0` first (spec/30_encoding.md rule R81). Whether they
are letters is `typeValid` (spec/41_typecode.md rule R141). -/
structure TypeCode where
  b0 : Byte
  b1 : Byte
  b2 : Byte
  b3 : Byte
  deriving DecidableEq, Repr

/-- `chunk = ( type, data, crc )` of rule R20; the length is not stored (spec/42_chunk.md rule R160). -/
structure Chunk where
  type : TypeCode
  data : List Byte
  crc  : Word
  deriving DecidableEq, Repr

/-- The closed set of error kinds (spec/60_exceptions.md rule R220). -/
inductive ErrorKind where
  /-- A byte of a type code is not a letter; raised by `TC.PARSE`, `TC.PARSES`, `CH.PARSE`, `CT.PARSE` (rule R221). -/
  | invalidTypeCode
  /-- Fewer bytes than a frame needs; raised by `CH.PARSE`, `CT.PARSE` (rule R221). -/
  | truncated
  /-- The stored checksum is not the computed one; raised by `CH.PARSE`, `CT.PARSE` (rule R221). -/
  | checksumMismatch
  /-- Kept in the taxonomy, raised by no command (rule R221). -/
  | invalidEncoding
  /-- The span does not begin with `SIG`; raised by `CT.PARSE` (rule R221). -/
  | badSignature
  /-- No stored chunk has the type; raised by `CT.REMOVE` (rule R221). -/
  | notFound
  deriving DecidableEq, Repr

/-- The refusal reasons (rule R225). -/
inductive RefuseReason where
  | opcode
  | precondition
  | capacity
  deriving DecidableEq, Repr

/-- The register a command returns its result in, which an error marks empty (rule R229 item 2). The chunk store has no
valid bit, so it is left unchanged. -/
inductive ResultReg where
  | typeReg
  | workReg
  | store
  deriving DecidableEq, Repr

/-- What a command's response fields say (spec/00_scope.md rule R16, spec/44_system.md rule R210). -/
inductive Response where
  | ok
  | error (k : ErrorKind)
  | refused (r : RefuseReason)
  deriving DecidableEq, Repr

/-- What the host can read (spec/44_system.md rules R212, R216): a register by its 4-bit number, a byte of `OB`, a byte
`WDATA[i]`. -/
inductive ReadPort where
  | reg (n : BitVec 4)
  | outByte (i : Nat)
  | wData (i : Word)
  deriving DecidableEq, Repr

/-- What the host can do to the engine between commands (spec/44_system.md rules R211 to R213,
spec/70_reset_and_hazards.md rule R250). -/
inductive HostAction where
  /-- Offer a command word (rule R216 `cmd_valid`, `cmd_word`). -/
  | issue (w : CmdWord)
  /-- `HOST.LOAD(b)` (rule R211). -/
  | load (b : List Byte)
  /-- `HOST.READ` (rule R212). -/
  | read (p : ReadPort)
  /-- Raise `rst` (rule R250). -/
  | reset
  deriving DecidableEq, Repr

/-- The state: rule R20's tuple; the parameters `cfg`, which no step changes (rules R8, R40; DESIGN CHOICE, log entry 3); and
`pending`, the host's actions still to come, oldest first (the model's own field, DESIGN CHOICE, log entry 1). `TV` and `WV` are
whether `t` and `w` hold a value (spec/93_implementation_defined.md U2). -/
structure State where
  /-- The parameters of rule R8. -/
  cfg : Config
  /-- `CRC`, the raw CRC accumulator (rule R21). -/
  crc : Word
  /-- `T` and `TV` (rule R23). -/
  t : Option TypeCode
  /-- `W` and `WV` (rule R26). -/
  w : Option Chunk
  /-- `CS`, the chunk store, index 0 nearest the signature (rule R30). -/
  cs : List Chunk
  /-- `IB`, the input buffer (rule R32). -/
  ib : List Byte
  /-- `CUR`, the parse cursor (rule R33). -/
  cur : Nat
  /-- `OB`, the output buffer (rule R34). -/
  ob : List Byte
  /-- `STATUS.ERR` (rule R36). -/
  err : BitVec 3
  /-- `STATUS.RSN` (rule R36). -/
  rsn : BitVec 2
  /-- `STATUS.FOUND` (rule R36). -/
  found : Bool
  /-- The host's actions still to come, oldest first (DESIGN CHOICE, log entry 1). -/
  pending : List HostAction
  deriving DecidableEq, Repr

/-- Why the machine stops with a fault. -/
inductive Fault where
  /-- `MemRead` outside `IB`, "A model that finds itself reading outside `IB` has misread a rule and should fault"
  (spec/20_memory.md rule R55). Raised by `memRead`; no command reaches it (DEDUCED, log entry 5). Safe: it
  stops where nothing is stated. -/
  | readOutsideIB
  deriving DecidableEq, Repr

/-- Why a step has no meaning. -/
inductive Refusal where
  /-- Raised by an arm of `exec` whose instruction has no meaning yet (none is left). Safe. -/
  | notModelled (mnemonic : String)
  /-- `HOST.LOAD` of more than `CAP_BUF` bytes: "the action is not enabled (the host has no move), and a model gives it
  no step" (spec/44_system.md rule R211). Raised by `hostLoad` (DEDUCED, log entry 4) and, byte by byte, by `ibWrite`
  (DESIGN CHOICE, log entry 24), by no command. Safe: nothing is claimed beyond it. -/
  | loadNotEnabled
  deriving DecidableEq, Repr

/-- The outcome of a command or of a step. -/
abbrev Result := Host.Outcome State Fault Refusal

/-- The reset state of an engine built with parameters `c` (rules R39, R251). -/
def State.resetWith (c : Config) : State where
  cfg := c
  crc := crcInit
  t := none
  w := none
  cs := []
  ib := []
  cur := 0
  ob := []
  err := 0#3
  rsn := 0#2
  found := false
  pending := []

/-- The machine right after reset, with rule R8's document-faithful parameters. -/
def State.reset : State := State.resetWith Config.docFaithful

end Sys2Proof.Machine
end

