-- ==== Sys2Proof/Machine/Operands.lean ====
section
/-! DEFINITION. The operand forms: byte-string slices, the two big-endian wire integers (spec/00_scope.md rule R13,
spec/20_memory.md rules R57, R58), letters and type codes (spec/41_typecode.md rules R140 to R142), the span and
`MemRead` (spec/20_memory.md rules R53, R55), and the test against a capacity (spec/00_scope.md rule R8). -/

namespace Sys2Proof.Machine

/-- `s[a..b)` of rule R12. -/
def slice (s : List Byte) (a b : Nat) : List Byte := (s.drop a).take (b - a)

/-- `be32` of rule R13: `[ v[31:24], v[23:16], v[15:8], v[7:0] ]`. -/
def be32 (v : Word) : List Byte :=
  [v.extractLsb' 24 8, v.extractLsb' 16 8, v.extractLsb' 8 8, v.extractLsb' 0 8]

/-- `be32dec` of rule R13, on the four bytes `b[0]` to `b[3]`: the weights are 2^24, 2^16, 2^8 and 1. -/
def be32dec (b : List Byte) : Word :=
  BitVec.ofNat 32 ((b.getD 0 0#8).toNat * 16777216 + (b.getD 1 0#8).toNat * 65536 +
    (b.getD 2 0#8).toNat * 256 + (b.getD 3 0#8).toNat)

/-- `is_letter` of rule R140; the ASCII codes are the spec's from general knowledge (UNVERIFIED, log entry 12). -/
def isLetter (b : Byte) : Bool :=
  (decide (0x41#8 ≤ b) && decide (b ≤ 0x5A#8)) || (decide (0x61#8 ≤ b) && decide (b ≤ 0x7A#8))

/-- The four bytes of a type code in wire order (rules R58, R81). -/
def typeBytes (t : TypeCode) : List Byte := [t.b0, t.b1, t.b2, t.b3]

/-- All four bytes are letters (rule R141). -/
def typeValid (t : TypeCode) : Bool := isLetter t.b0 && isLetter t.b1 && isLetter t.b2 && isLetter t.b3

/-- `valid_tc` of rule R141 as a parser: the type code a byte string spells, when it is exactly four letters. -/
def typeOfBytes : List Byte → Option TypeCode
  | [a, b, c, d] => if typeValid ⟨a, b, c, d⟩ then some ⟨a, b, c, d⟩ else none
  | [] => none
  | [_] => none
  | [_, _] => none
  | [_, _, _] => none
  | _ :: _ :: _ :: _ :: _ :: _ => none

/-- `span = IB[CUR..IBLEN)` (rule R53); empty in a state, which no run reaches, with `CUR` past `IBLEN` (DESIGN CHOICE,
log entry 18). -/
def span (s : State) : List Byte := s.ib.drop s.cur

/-- `MemRead(IB, a, n)`, defined only for `a + n ≤ IBLEN` (rules R15, R55). -/
def memRead (a n : Nat) (s : State) : Except Fault (List Byte) :=
  if a + n ≤ s.ib.length then .ok (slice s.ib a (a + n)) else .error .readOutsideIB

/-- `n` is more than the capacity holds (rule R8); nothing is more than ∞. -/
def exceeds (n : Nat) : Cap → Bool
  | .finite m => decide (m < n)
  | .unbounded => false

/-- The data bytes summed over a list of chunks (rules R30, R226). -/
def totalData (cs : List Chunk) : Nat := (cs.map fun c => c.data.length).sum

end Sys2Proof.Machine
end

