-- ==== Sys2Proof/Machine/Flags.lean ====
section
/-! DEFINITION. The fields of `STATUS` (spec/10_state.md rules R25, R36): the numeric error and refusal codes
(spec/60_exceptions.md rules R222, R225), the valid bits, the four property bits (spec/41_typecode.md rules R142 to
R146), and the register itself. -/

namespace Sys2Proof.Machine

/-- The value of `STATUS.ERR` for an error kind (rule R222). -/
def errCode : ErrorKind → BitVec 3
  | .invalidTypeCode => 1#3
  | .truncated => 2#3
  | .checksumMismatch => 3#3
  | .invalidEncoding => 4#3
  | .badSignature => 5#3
  | .notFound => 6#3

/-- `STATUS.ERR` of a refused command (rules R222, R225). -/
def errRefused : BitVec 3 := 7#3

/-- The value of `STATUS.RSN` for a refusal reason (rule R225). -/
def rsnCode : RefuseReason → BitVec 2
  | .opcode => 1#2
  | .precondition => 2#2
  | .capacity => 3#2

/-- `is_upper(b) = (b[5] = 0)` (rule R142). -/
def isUpper (b : Byte) : Bool := !b.getLsbD 5

/-- `is_lower(b) = (b[5] = 1)` (rule R142). -/
def isLower (b : Byte) : Bool := b.getLsbD 5

/-- `critical(t)` (rule R143). -/
def critical (t : TypeCode) : Bool := isUpper t.b0

/-- `public(t)` (rule R144). -/
def isPublic (t : TypeCode) : Bool := isUpper t.b1

/-- `reserved(t)`, true for a conforming code (rule R145; spec/90_conflicts.md C2). -/
def reservedOk (t : TypeCode) : Bool := isUpper t.b2

/-- `safe_to_copy(t)` (rule R146). -/
def safeToCopy (t : TypeCode) : Bool := isLower t.b3

/-- `TV` (rule R23). -/
def tv (s : State) : Bool := s.t.isSome

/-- `WV` (rule R26). -/
def wv (s : State) : Bool := s.w.isSome

/-- `PROP`, bit 3 first: safe-to-copy, reserved, public, critical; 0 when `TV = 0` (rule R25). -/
def prop (s : State) : BitVec 4 :=
  match s.t with
  | none => 0#4
  | some t => BitVec.ofBool (safeToCopy t) ++ BitVec.ofBool (reservedOk t) ++ BitVec.ofBool (isPublic t) ++
      BitVec.ofBool (critical t)

/-- `BUSY`: commands are atomic steps, so it is 0 at every state the host sees (rule R36; DEDUCED, log entry 8). -/
def busy (_ : State) : Bool := false

/-- `STATUS`, register 0 (rule R36): bits 31:13 zero, 12 `BUSY`, 11:8 `PROP`, 7 `WV`, 6 `TV`, 5 `FOUND`, 4:3 `RSN`,
2:0 `ERR`. -/
def status (s : State) : Word :=
  0#19 ++ BitVec.ofBool (busy s) ++ prop s ++ BitVec.ofBool (wv s) ++ BitVec.ofBool (tv s) ++
    BitVec.ofBool s.found ++ s.rsn ++ s.err

/-- The response fields as one value (rules R16, R210): ok, an error kind, or refused with a reason. The combinations
`ERR = 0` to 6 with any `RSN`, and `ERR = 7` with `RSN = 0`, that no command writes are read by `ERR` alone (DESIGN CHOICE, log entry 21). -/
def response (s : State) : Response :=
  if s.err = 1#3 then .error .invalidTypeCode
  else if s.err = 2#3 then .error .truncated
  else if s.err = 3#3 then .error .checksumMismatch
  else if s.err = 4#3 then .error .invalidEncoding
  else if s.err = 5#3 then .error .badSignature
  else if s.err = 6#3 then .error .notFound
  else if s.err = 7#3 then
    if s.rsn = 1#2 then .refused .opcode
    else if s.rsn = 2#2 then .refused .precondition
    else .refused .capacity
  else .ok

end Sys2Proof.Machine
end

