-- ==== Sys2Proof/Machine/Ops.lean ====
section
/-! DEFINITION. The named operations over the state: one update per register or buffer, the three ways a command ends
(ok, error, refused: spec/00_scope.md rules R15, R16), `MemWrite`, the register views and the read ports
(spec/10_state.md rules R22 to R38), and what the host does between commands (spec/44_system.md rules R211, R212,
spec/70_reset_and_hazards.md rule R250). -/

namespace Sys2Proof.Machine

/-! ### One update per piece of state -/

/-- `CRC <- v`. -/
def setCrc (v : Word) (s : State) : State := { s with crc := v }

/-- `T <- v` with its valid bit. -/
def setT (v : Option TypeCode) (s : State) : State := { s with t := v }

/-- `W <- v` with its valid bit. -/
def setW (v : Option Chunk) (s : State) : State := { s with w := v }

/-- `CS <- v`. -/
def setCs (v : List Chunk) (s : State) : State := { s with cs := v }

/-- `CUR <- v`. -/
def setCur (v : Nat) (s : State) : State := { s with cur := v }

/-- `IB <- b`, with the cursor the host's load leaves (rule R211). -/
def setInput (b : List Byte) (c : Nat) (s : State) : State := { s with ib := b, cur := c }

/-- `MemWrite(OB, v)`: the output buffer is replaced whole (spec/20_memory.md rule R56). -/
def memWrite (v : List Byte) (s : State) : State := { s with ob := v }

/-- The three response fields, written together by every command (rule R36). -/
def setResponse (e : BitVec 3) (r : BitVec 2) (f : Bool) (s : State) : State :=
  { s with err := e, rsn := r, found := f }

/-- The host's actions still to come. -/
def setPending (l : List HostAction) (s : State) : State := { s with pending := l }

/-- `CUR <- IBLEN`: the whole span is consumed (rule R54). -/
def consumeSpan (s : State) : State := setCur s.ib.length s

/-! ### The three ways a command ends -/

/-- `ok`: `ERR <- 0, RSN <- 0`; `FOUND` is 1 only for a `CT.FIND` or `CT.REMOVE` that found (rules R15, R36). -/
def ok (found : Bool) (s : State) : Result := .next (setResponse 0#3 0#2 found s)

/-- The register an erring command would have returned its result in is marked empty (rule R229 item 2). -/
def invalidate : ResultReg → State → State
  | .typeReg, s => setT none s
  | .workReg, s => setW none s
  | .store, s => s

/-- `raise k`, the engine's form of taking an exception (spec/60_exceptions.md rule R229): `ERR <- code(k)`, `RSN <- 0`,
`FOUND <- 0`, the result register `r` marked empty, nothing else changed. There is no handler to go to and nothing to
return from (rule R230): the next command simply runs. -/
def raiseError (k : ErrorKind) (r : ResultReg) (s : State) : Result :=
  .next (setResponse (errCode k) 0#2 false (invalidate r s))

/-- `refuse(r)` (rule R225): `ERR <- 7; RSN <- r; FOUND <- 0`, and no other state changes at all (DESIGN CHOICE, log entry 2). -/
def refuse (r : RefuseReason) (s : State) : Result := .next (setResponse errRefused (rsnCode r) false s)

/-! ### Views and read ports -/

/-- `CRCOUT`, register 2 (rules R22, R124). -/
def crcOut (s : State) : Word := s.crc ^^^ crcXorOut

/-- `TCODE`, register 3 (rule R24). -/
def tcode (s : State) : Word :=
  match s.t with
  | none => 0#32
  | some t => be32dec (typeBytes t)

/-- `WLEN`, register 4 (rule R27), 32 bits; exact for every chunk that meets rule R28 (DEDUCED, log entry 17). -/
def wLen (s : State) : Word :=
  match s.w with
  | none => 0#32
  | some c => BitVec.ofNat 32 c.data.length

/-- `WTYPE`, register 5 (rule R27). -/
def wType (s : State) : Word :=
  match s.w with
  | none => 0#32
  | some c => be32dec (typeBytes c.type)

/-- `WCRC`, register 6 (rule R27). -/
def wCrc (s : State) : Word :=
  match s.w with
  | none => 0#32
  | some c => c.crc

/-- `WDATA[i]`, 0 past the end or when `WV = 0` (rule R27). -/
def wData (i : Nat) (s : State) : Byte :=
  match s.w with
  | none => 0#8
  | some c => c.data.getD i 0#8

/-- `NCHUNKS`, register 7 (rule R31). -/
def nChunks (s : State) : Nat := s.cs.length

/-- `IBLEN`, register 9 (rule R32). -/
def ibLen (s : State) : Nat := s.ib.length

/-- `OBLEN`, register 10 (rule R34). -/
def obLen (s : State) : Nat := s.ob.length

/-- `OB[i]` at the output read port, 0 past the end (rule R34). -/
def outByte (i : Nat) (s : State) : Byte := s.ob.getD i 0#8

/-- The register read port: the numbers of rule R38, 11 to 15 reading zero. -/
def readReg (n : BitVec 4) (s : State) : Nat :=
  match n.getLsbD 3, n.getLsbD 2, n.getLsbD 1, n.getLsbD 0 with
  | false, false, false, false => (status s).toNat
  | false, false, false, true  => s.crc.toNat
  | false, false, true,  false => (crcOut s).toNat
  | false, false, true,  true  => (tcode s).toNat
  | false, true,  false, false => (wLen s).toNat
  | false, true,  false, true  => (wType s).toNat
  | false, true,  true,  false => (wCrc s).toNat
  | false, true,  true,  true  => nChunks s
  | true,  false, false, false => s.cur
  | true,  false, false, true  => ibLen s
  | true,  false, true,  false => obLen s
  | true,  false, true,  true  => 0
  | true,  true,  false, false => 0
  | true,  true,  false, true  => 0
  | true,  true,  true,  false => 0
  | true,  true,  true,  true  => 0

/-- `NCHUNKS` is 32 bits wide when `CAP_CHUNKS < 2^32` and unbounded otherwise (rule R31). -/
def nChunksWidth : Cap → Width
  | .finite n => if n < 2 ^ 32 then .bits 32 else .unbounded
  | .unbounded => .unbounded

/-- The width column of rule R38; the reserved registers read zero and have none. -/
def regWidth (c : Config) (n : BitVec 4) : Width :=
  if n.toNat ≤ 6 then .bits 32
  else if n.toNat = 7 then nChunksWidth c.capChunks
  else if n.toNat ≤ 10 then c.aw
  else .bits 0

/-- A value fits a width. -/
def fitsWidth (v : Nat) : Width → Bool
  | .bits n => decide (v < 2 ^ n)
  | .unbounded => true

/-- What a host read returns (rule R212). -/
def readPort (p : ReadPort) (s : State) : Nat :=
  match p with
  | .reg n => readReg n s
  | .outByte i => (outByte i s).toNat
  | .wData i => (wData i.toNat s).toNat

/-! ### What the host does between commands -/

/-- `HOST.LOAD(b)` (rule R211): enabled when `b` fits `CAP_BUF`; then `IB <- b; CUR <- 0`, nothing else;
otherwise it has no step (DEDUCED, log entry 4). -/
def hostLoad (b : List Byte) (s : State) : Result :=
  if exceeds b.length s.cfg.capBuf then .refused .loadNotEnabled else .next (setInput b 0 s)

/-- `HOST.READ` (rule R212): no read changes any state; `readPort` is what it returns (DEDUCED, log entry 14). -/
def hostRead (_ : ReadPort) (s : State) : Result := .next s

/-- `rst` (rule R250): every field of rule R20 to its reset value; the parameters and the host's plans stay (DESIGN
CHOICE, log entry 9). -/
def hostReset (s : State) : Result := .next (setPending s.pending (State.resetWith s.cfg))

/-- With nothing offered the engine is idle, and idle keeps all state (spec/60_exceptions.md rule R240; that it is a step
is DESIGN CHOICE, log entry 10). -/
def idle (s : State) : Result := .next s

/-- The host's next action, taken off the list. -/
def takeAction (s : State) : Option (HostAction × State) :=
  match s.pending with
  | [] => none
  | a :: rest => some (a, setPending rest s)

/-- Put a command word in front of the host's actions, so that it is offered next. -/
def offerNext (w : CmdWord) (s : State) : State := setPending (.issue w :: s.pending) s

end Sys2Proof.Machine
end

