-- ==== Sys2Proof/Machine/Crc.lean ====
section
/-! DEFINITION. The CRC unit (spec/40_crc.md): the CRC-32/ISO-HDLC functions and the commands `CRC.CLR`, `CRC.UPD`. -/

namespace Sys2Proof.Machine

/-- `crc_shift` of rule R121, the one-bit step. -/
def crcShift (c : Word) : Word := if c.getLsbD 0 then (c >>> 1) ^^^ polyR else c >>> 1

/-- `n` one-bit steps. -/
def crcShifts : Nat → Word → Word
  | 0, c => c
  | n + 1, c => crcShifts n (crcShift c)

/-- `crc_byte` of rule R121: the byte enters bits 7:0, then eight shifts. -/
def crcByte (c : Word) (b : Byte) : Word := crcShifts 8 (c ^^^ b.zeroExtend 32)

/-- `crc_raw` of rule R122, a left fold over the bytes, first byte first. -/
def crcRaw (c : Word) (s : List Byte) : Word := s.foldl crcByte c

/-- `crc32` of rule R125. -/
def crc32 (s : List Byte) : Word := crcRaw crcInit s ^^^ crcXorOut

/-- `CRC.CLR` (rule R127). -/
def execCrcClr (s : State) : Result := ok false (setCrc crcInit s)

/-- `CRC.UPD` (rule R128). -/
def execCrcUpd (s : State) : Result := ok false (consumeSpan (setCrc (crcRaw s.crc (span s)) s))

end Sys2Proof.Machine
end

