-- ==== Sys2Proof/Machine/TypeCodes.lean ====
section
/-! DEFINITION. The type-code unit (spec/41_typecode.md): the commands `TC.PARSE` and `TC.PARSES`. -/

namespace Sys2Proof.Machine

/-- `TC.PARSE` (rule R148): the first four bytes of the span. -/
def execTcParse (s : State) : Result :=
  if (span s).length < 4 then refuse .precondition s
  else
    match memRead s.cur 4 s with
    | .error f => .fault f
    | .ok bytes =>
      match typeOfBytes bytes with
      | some t => ok false (setCur (s.cur + 4) (setT (some t) s))
      | none => raiseError .invalidTypeCode .typeReg s

/-- `TC.PARSES` (rule R149): the whole span as the bytes of a text. -/
def execTcParses (s : State) : Result :=
  match typeOfBytes (span s) with
  | some t => ok false (consumeSpan (setT (some t) s))
  | none => raiseError .invalidTypeCode .typeReg s

end Sys2Proof.Machine
end

