-- ==== Sys2Proof/Machine/Chunks.lean ====
section
/-! DEFINITION. The chunk unit (spec/42_chunk.md): `mkchunk`, `frame`, `parse_chunk`, and the commands `CH.NEW`,
`CH.PARSE`, `CH.SER`. Lengths are exact naturals, never 32-bit arithmetic (rule R167). -/

namespace Sys2Proof.Machine

/-- `mkchunk` of rule R161. -/
def mkChunk (t : TypeCode) (d : List Byte) : Chunk where
  type := t
  data := d
  crc := crc32 (typeBytes t ++ d)

/-- `frame` of rule R162: length, type, data, checksum; `12 + len(data)` bytes (spec/30_encoding.md rule R83). -/
def frame (c : Chunk) : List Byte :=
  be32 (BitVec.ofNat 32 c.data.length) ++ typeBytes c.type ++ c.data ++ be32 c.crc

/-- `parse_chunk` of rule R164: the six steps in the document's order. -/
def parseChunk (s : List Byte) : Except ErrorKind (Chunk × Nat) :=
  if s.length < 12 then .error .truncated
  else
    let len := (be32dec (slice s 0 4)).toNat
    match typeOfBytes (slice s 4 8) with
    | none => .error .invalidTypeCode
    | some t =>
      if s.length < 8 + len + 4 then .error .truncated
      else
        let d := slice s 8 (8 + len)
        let stored := be32dec (slice s (8 + len) (12 + len))
        if crc32 (typeBytes t ++ d) = stored then .ok (⟨t, d, stored⟩, 12 + len)
        else .error .checksumMismatch

/-- `CH.NEW` (rule R163). -/
def execChNew (s : State) : Result :=
  match s.t with
  | none => refuse .precondition s
  | some t =>
    if 2 ^ 32 - 1 < (span s).length then refuse .precondition s
    else if s.cfg.capData < (span s).length then refuse .capacity s
    else ok false (consumeSpan (setW (some (mkChunk t (span s))) s))

/-- `CH.PARSE` (rule R165): the capacity is tested after every check of the document (spec/60_exceptions.md R226). -/
def execChParse (s : State) : Result :=
  match parseChunk (span s) with
  | .error k => raiseError k .workReg s
  | .ok (c, n) =>
    if s.cfg.capData < c.data.length then refuse .capacity s
    else ok false (setCur (s.cur + n) (setW (some c) s))

/-- `CH.SER` (rule R168). -/
def execChSer (s : State) : Result :=
  match s.w with
  | none => refuse .precondition s
  | some c =>
    if exceeds (12 + c.data.length) s.cfg.capBuf then refuse .capacity s
    else ok false (memWrite (frame c) s)

end Sys2Proof.Machine
end

