-- ==== Sys2Proof/Machine/Containers.lean ====
section
/-! DEFINITION. The container unit (spec/43_container.md): `parse_container`, `ser_container`, `find_first`, and the
commands `CT.PARSE`, `CT.APPEND`, `CT.FIND`, `CT.REMOVE`, `CT.GET`, `CT.SER`. No chunk type is special and no order is
enforced (rule R187). -/

namespace Sys2Proof.Machine

/-- The loop of rule R181 step 2, on the bytes from `p` to the end. Each pass takes at least 12 bytes (rule R184), so a
fuel of the number of bytes is never spent: the middle equation is not reached from `parseFrames` (DEDUCED, log entry 13). -/
def parseFramesFuel : Nat → List Byte → Except ErrorKind (List Chunk)
  | _, [] => .ok []
  | 0, _ :: _ => .error .truncated
  | fuel + 1, b :: bs =>
    match parseChunk (b :: bs) with
    | .error k => .error k
    | .ok (c, n) =>
      match parseFramesFuel fuel ((b :: bs).drop n) with
      | .error k => .error k
      | .ok l => .ok (c :: l)

/-- Frames back to back to the end of the bytes (rule R181 step 2). -/
def parseFrames (s : List Byte) : Except ErrorKind (List Chunk) := parseFramesFuel s.length s

/-- `parse_container` of rule R181. -/
def parseContainer (s : List Byte) : Except ErrorKind (List Chunk) :=
  if s.length < 8 ∨ slice s 0 8 ≠ sig then .error .badSignature else parseFrames (s.drop 8)

/-- The frames of a list of chunks, in list order (rule R185). -/
def serFrames (l : List Chunk) : List Byte := l.flatMap frame

/-- `ser_container` of rule R185. -/
def serContainer (l : List Chunk) : List Byte := sig ++ serFrames l

/-- `find_first` of rule R188: the least index whose chunk has type bytes `t`, with that chunk. -/
def findFirst : List Chunk → List Byte → Option (Nat × Chunk)
  | [], _ => none
  | c :: cs, t =>
    if typeBytes c.type = t then some (0, c)
    else
      match findFirst cs t with
      | none => none
      | some (i, d) => some (i + 1, d)

/-- A parsed list does not fit the store (rule R182): too many chunks, one too long, or too much data in all. -/
def storeOverflow (c : Config) (l : List Chunk) : Bool :=
  exceeds l.length c.capChunks || l.any (fun k => decide (c.capData < k.data.length)) ||
    exceeds (totalData l) c.capStore

/-- `CT.PARSE` (rule R182): on an error or a refusal the store keeps the container it had. -/
def execCtParse (s : State) : Result :=
  match parseContainer (span s) with
  | .error k => raiseError k .store s
  | .ok l =>
    if storeOverflow s.cfg l then refuse .capacity s
    else ok false (consumeSpan (setCs l s))

/-- `CT.APPEND` (rule R186): always at the tail, no ordering check (rule R187). -/
def execCtAppend (s : State) : Result :=
  match s.w with
  | none => refuse .precondition s
  | some c =>
    if exceeds (s.cs.length + 1) s.cfg.capChunks || exceeds (totalData s.cs + c.data.length) s.cfg.capStore then
      refuse .capacity s
    else ok false (setCs (s.cs ++ [c]) s)

/-- `CT.FIND` (rule R189): absence is not an error. -/
def execCtFind (s : State) : Result :=
  match findFirst s.cs (span s) with
  | some (_, c) => ok true (consumeSpan (setW (some c) s))
  | none => ok false (consumeSpan (setW none s))

/-- `CT.REMOVE` (rule R192). -/
def execCtRemove (s : State) : Result :=
  match findFirst s.cs (span s) with
  | some (i, c) => ok true (consumeSpan (setCs (s.cs.eraseIdx i) (setW (some c) s)))
  | none => raiseError .notFound .workReg s

/-- `CT.GET` (rule R195): `arg` is the index. -/
def execCtGet (arg : Word) (s : State) : Result :=
  match s.cs[arg.toNat]? with
  | none => refuse .precondition s
  | some c => ok false (setW (some c) s)

/-- `CT.SER` (rule R198). -/
def execCtSer (s : State) : Result :=
  if exceeds (serContainer s.cs).length s.cfg.capBuf then refuse .capacity s
  else ok false (memWrite (serContainer s.cs) s)

end Sys2Proof.Machine
end

