-- ==== Sys2Proof/Machine/System.lean ====
section
/-! DEFINITION. The system commands (spec/44_system.md rules R214, R215): `NOP` and the two reserved opcodes. -/

namespace Sys2Proof.Machine

/-- `NOP` (rule R214): its only effect is to clear the response fields. -/
def execNop (s : State) : Result := ok false s

/-- Opcode `0xE` (rule R215): refused with reason 1. -/
def execReservedE (s : State) : Result := refuse .opcode s

/-- Opcode `0xF` (rule R215): refused with reason 1. -/
def execReservedF (s : State) : Result := refuse .opcode s

end Sys2Proof.Machine
end

