-- ==== Sys2Proof/Machine/Dispatch.lean ====
section
/-! DEFINITION. One arm per command (spec/44_system.md rule R210); `arg` reaches `CT.GET` alone (rule R100). -/

namespace Sys2Proof.Machine

/-- The one rule of a command, run on a state (rule R210). -/
def exec (i : Instr) (s : State) : Host.Outcome State Fault Refusal :=
  match i with
  | .nop _ => Sys2Proof.Machine.execNop s
  | .crcClr _ => Sys2Proof.Machine.execCrcClr s
  | .crcUpd _ => Sys2Proof.Machine.execCrcUpd s
  | .tcParse _ => Sys2Proof.Machine.execTcParse s
  | .tcParses _ => Sys2Proof.Machine.execTcParses s
  | .chNew _ => Sys2Proof.Machine.execChNew s
  | .chParse _ => Sys2Proof.Machine.execChParse s
  | .chSer _ => Sys2Proof.Machine.execChSer s
  | .ctParse _ => Sys2Proof.Machine.execCtParse s
  | .ctAppend _ => Sys2Proof.Machine.execCtAppend s
  | .ctFind _ => Sys2Proof.Machine.execCtFind s
  | .ctRemove _ => Sys2Proof.Machine.execCtRemove s
  | .ctGet arg => Sys2Proof.Machine.execCtGet arg s
  | .ctSer _ => Sys2Proof.Machine.execCtSer s
  | .reservedE _ => Sys2Proof.Machine.execReservedE s
  | .reservedF _ => Sys2Proof.Machine.execReservedF s

end Sys2Proof.Machine
end

