-- ==== Sys2Proof/Machine/Step.lean ====
section
/-! DEFINITION. One step: the engine takes the host's next action (spec/44_system.md rules R210 to R213). The engine has no
program counter and fetches nothing (spec/10_state.md rule R33): every command comes from the host. -/

namespace Sys2Proof.Machine

/-- One step. A command is one atomic transition (spec/20_memory.md rule R63); a load, a read and a reset happen between
commands; with nothing offered the engine is idle. -/
def step (s : State) : Host.Outcome State Fault Refusal :=
  match takeAction s with
  | none => idle s
  | some (.issue w, s') => exec (decode w) s'
  | some (.load b, s') => hostLoad b s'
  | some (.read p, s') => hostRead p s'
  | some (.reset, s') => hostReset s'

/-- The state in which the very next step runs the command word `w` (cut to `nbits` bits): the host offers it next
(DESIGN CHOICE, log entry 11: how a program comes to run). -/
def State.withFetchWord (s : State) (nbits w : Nat) : State := offerNext (BitVec.ofNat 36 (w % 2 ^ nbits)) s

end Sys2Proof.Machine
end

