-- ==== Sys2Proof/Machine/Ports.lean ====
section
/-! DEFINITION. The signal-level ports of spec/44_system.md rule R216: their directions and widths, the idle outputs, the read
ports by address, and the byte-serial form of `HOST.LOAD`. Clock cycles, `done` and the busy interval are timing
(DEDUCED, log entry 8). -/

namespace Sys2Proof.Machine

/-- The ports of rule R216's table, in its order. -/
inductive Port where
  | clk
  | rst
  | cmdValid
  | cmdReady
  | cmdWord
  | done
  | ibLoad
  | ibWe
  | ibData
  | regAddr
  | regData
  | obAddr
  | obData
  | wdAddr
  | wdData
  deriving DecidableEq, Repr

/-- The "direction" column of rule R216, as the engine sees it. -/
inductive Direction where
  | input
  | output
  deriving DecidableEq, Repr

/-- The direction of each port (rule R216). -/
def portDirection : Port → Direction
  | .clk | .rst | .cmdValid | .cmdWord | .ibLoad | .ibWe | .ibData | .regAddr | .obAddr | .wdAddr => .input
  | .cmdReady | .done | .regData | .obData | .wdData => .output

/-- `max(n, w)` for a width `w`. -/
def widthAtLeast (n : Nat) : Width → Width
  | .bits m => .bits (max n m)
  | .unbounded => .unbounded

/-- The "width" column of rule R216: `reg_data` is `max(32, AW)` bits and `ob_addr` is `AW` bits. -/
def portWidth (c : Config) : Port → Width
  | .clk | .rst | .cmdValid | .cmdReady | .done | .ibLoad | .ibWe => .bits 1
  | .cmdWord => .bits 36
  | .ibData | .obData | .wdData => .bits 8
  | .regAddr => .bits 4
  | .regData => widthAtLeast 32 c.aw
  | .obAddr => c.aw
  | .wdAddr => .bits 32

/-- What the wires of a port of width `w` carry for the value `v`: `v` where it fits, else the low bits of `free`. -/
def onWires (w : Width) (free v : Nat) : Nat :=
  match w with
  | .bits n => if v < 2 ^ n then v else free % 2 ^ n
  | .unbounded => v

/-- `cmd_ready = not BUSY` (rule R216). -/
def cmdReady (s : State) : Bool := !busy s

/-- A command is accepted in a cycle where `cmd_valid` and `cmd_ready` are both 1 (rule R216). -/
def accepts (cmdValid : Bool) (s : State) : Bool := cmdValid && cmdReady s

/-- `ib_load`: the start of a `HOST.LOAD`, `IBLEN <- 0`, `CUR <- 0` (rule R216). -/
def ibLoad (s : State) : State := setInput [] 0 s

/-- `ib_we` with `ib_data`: append one byte to `IB` (rule R216). Where `IB` holds `CAP_BUF` bytes already no rule says what the
port does; the write then has no step, as the load it belongs to has none (rule R211; DESIGN CHOICE, log entry 24). -/
def ibWrite (s : State) (b : Byte) : Result :=
  if exceeds (s.ib.length + 1) s.cfg.capBuf then .refused .loadNotEnabled else .next (setInput (s.ib ++ [b]) s.cur s)

/-- Bytes written one after another, stopping where a write stops. -/
def ibWriteAll : List Byte → State → Result
  | [], s => .next s
  | b :: bs, s =>
    match ibWrite s b with
    | .next s' => ibWriteAll bs s'
    | .fault f => .fault f
    | .refused r => .refused r

/-- The bytes written between `ib_load` and the next command, the `b` of rule R211 (rule R216). -/
def ibStream (bytes : List Byte) (s : State) : Result := ibWriteAll bytes (ibLoad s)

/-- `reg_data` for `reg_addr` (rule R216): the register, on `max(32, AW)` wires. Only `NCHUNKS` can fail to fit them, where
`CAP_CHUNKS ≥ 2^32` makes it an unbounded natural and `AW` is finite; no rule says what the port then shows, and it is the
free value `Config.freeRegData` (DESIGN CHOICE, log entry 25). -/
def regData (regAddr : BitVec 4) (s : State) : Nat :=
  onWires (portWidth s.cfg .regData) (s.cfg.freeRegData (readReg regAddr s)) (readReg regAddr s)

/-- `ob_data` for `ob_addr` (rule R216): the byte at the address; none where the number is no address of `AW` bits (DEDUCED,
log entry 26). -/
def obData (obAddr : Nat) (s : State) : Option Byte :=
  if fitsWidth obAddr (portWidth s.cfg .obAddr) then some (outByte obAddr s) else none

/-- `wd_data` for `wd_addr` (rule R216). -/
def wdData (wdAddr : Word) (s : State) : Byte := wData wdAddr.toNat s

end Sys2Proof.Machine
end

