-- ==== Sys2Proof/Machine/Program.lean ====
section
/-! DEFINITION. Programs as the host's actions (spec/30_encoding.md rules R104, R105): the pseudo-commands, each the fixed
sequence rule R105 gives. A command with no `<arg>` is encoded with `arg = 0`. -/

namespace Sys2Proof.Machine

/-- A line of rule R104's notation that is a command. -/
def command (i : Instr) : HostAction := .issue (encode i)

/-- `TYPE <text>` (rule R105). -/
def pseudoType (text : List Byte) : List HostAction := [.load text, command (.tcParses 0#32)]

/-- `MKCHUNK <text>, <bytes>` (rule R105). -/
def pseudoMkChunk (text bytes : List Byte) : List HostAction :=
  pseudoType text ++ [.load bytes, command (.chNew 0#32)]

/-- `CRC32 <bytes>` (rule R105); the host then reads `CRCOUT`. -/
def pseudoCrc32 (bytes : List Byte) : List HostAction :=
  [command (.crcClr 0#32), .load bytes, command (.crcUpd 0#32)]

/-- `FIND <text>` (rule R105). -/
def pseudoFind (text : List Byte) : List HostAction := [.load text, command (.ctFind 0#32)]

/-- `REMOVE <text>` (rule R105). -/
def pseudoRemove (text : List Byte) : List HostAction := [.load text, command (.ctRemove 0#32)]

/-- `PARSEFILE <bytes>` (rule R105). -/
def pseudoParseFile (bytes : List Byte) : List HostAction := [.load bytes, command (.ctParse 0#32)]

/-- The host runs a program: its actions, one a step, stopping where a step stops. -/
def runActions : List HostAction → State → Result
  | [], s => .next s
  | a :: as, s =>
    match step (setPending (a :: s.pending) s) with
    | .next s' => runActions as s'
    | .fault f => .fault f
    | .refused r => .refused r

end Sys2Proof.Machine
end

