-- ==== Sys2Proof/Safety.lean ====
section
/-! DEFINITION. What claims are made in terms of: the state invariants of spec/10_state.md rule R43 (with the chunk
invariants of rule R28), what a safe outcome is, and how two outcomes are compared. -/

namespace Sys2Proof.Machine

/-- Rule R28: the type is four letters, the checksum is the computed one, the data fits the length field and `CAP_DATA`. -/
def chunkOk (cfg : Config) (c : Chunk) : Bool :=
  typeValid c.type && c.crc == crc32 (typeBytes c.type ++ c.data) &&
    decide (c.data.length ≤ 2 ^ 32 - 1) && decide (c.data.length ≤ cfg.capData)

/-- Rule R43 item 4: the buffers and the cursor are within bounds. The byte lists of exactly their lengths are the
canonical form of the two buffers (DEDUCED, log entry 7). -/
def Memory.wf (s : State) : Bool :=
  !exceeds s.ib.length s.cfg.capBuf && !exceeds s.ob.length s.cfg.capBuf && decide (s.cur ≤ s.ib.length)

/-- Rule R43 item 3: every stored chunk meets rule R28, and the store is within its capacities. -/
def storeOk (s : State) : Bool :=
  s.cs.all (chunkOk s.cfg) && !exceeds s.cs.length s.cfg.capChunks && !exceeds (totalData s.cs) s.cfg.capStore

/-- Rule R43 item 5: `ERR = 7` iff `RSN ≠ 0`, and `FOUND = 1` implies `ERR = 0`. -/
def responseOk (s : State) : Bool :=
  (decide (s.err = errRefused) == decide (s.rsn ≠ 0#2)) && (!s.found || decide (s.err = 0#3))

/-- The invariants of rule R43, items 1 to 5, with the parameter ranges of rule R8. -/
def State.inv (s : State) : Bool :=
  s.cfg.wf && s.t.all typeValid && s.w.all (chunkOk s.cfg) && storeOk s && Memory.wf s && responseOk s

/-- The invariants of rule R43 hold of a state. -/
abbrev State.Inv (s : State) : Prop := s.inv = true

/-- A step that does not fault. -/
def Safe (o : Result) : Prop := ∀ f, o ≠ .fault f

/-- A command's response is an error kind of rule R220: `ERR` is 1 to 6. -/
def endedInError (s : State) : Prop := s.err ≠ 0#3 ∧ s.err ≠ errRefused

/-- The same change made to the next state an outcome holds; stops are kept. -/
def mapNext (f : State → State) : Result → Result
  | .next s => .next (f s)
  | .fault r => .fault r
  | .refused r => .refused r

end Sys2Proof.Machine
end

