-- ==== Sys2Proof/Certificates/Slice0/Obligations.lean ====
section
/-! DEFINITION. The statements for the provers. Each says which rules of spec/ it formalises. States are written as record
updates `{ s with … }`, so a result statement is also the frame: what it does not name is unchanged. -/

namespace Sys2Proof.Statements

open Sys2Proof Sys2Proof.Machine

/-- Rule R140, on the number of the byte. -/
def Letter (b : Byte) : Prop := (0x41 ≤ b.toNat ∧ b.toNat ≤ 0x5A) ∨ (0x61 ≤ b.toNat ∧ b.toNat ≤ 0x7A)

/-- Rule R141, for the four bytes of a type code. -/
def FourLetters (t : TypeCode) : Prop := Letter t.b0 ∧ Letter t.b1 ∧ Letter t.b2 ∧ Letter t.b3

/-- `n` does not fit a capacity of rule R8. -/
def Over (n : Nat) (c : Cap) : Prop := ∃ m, c = .finite m ∧ m < n

/-- The value of four bytes read big-endian, with the weights 2^24, 2^16, 2^8 and 1 (rule R13). -/
def be (a b c d : Byte) : Nat := a.toNat * 16777216 + b.toNat * 65536 + c.toNat * 256 + d.toNat

/-- `i` is the least index of `l` whose chunk `c` has the type bytes `t` (rule R188). -/
def FirstMatch (l : List Chunk) (t : List Byte) (i : Nat) (c : Chunk) : Prop :=
  l[i]? = some c ∧ typeBytes c.type = t ∧ ∀ j d, j < i → l[j]? = some d → typeBytes d.type ≠ t

/-- No chunk of `l` has the type bytes `t` (rule R188 `absent`). -/
def NoMatch (l : List Chunk) (t : List Byte) : Prop := ∀ c ∈ l, typeBytes c.type ≠ t

/-- Rule R28, without the capacity: the type is four letters, the checksum is the computed one, the length fits 32 bits. -/
def GoodChunk (c : Chunk) : Prop :=
  FourLetters c.type ∧ c.crc = crc32 (typeBytes c.type ++ c.data) ∧ c.data.length ≤ 2 ^ 32 - 1

end Sys2Proof.Statements

open Sys2Proof Sys2Proof.Machine Sys2Proof.Statements

/-! ### Command words -/

/-- Rules R100, R101, R103: a command word and a command carry the same information, in both directions. -/
def Obligations.DecodeAndEncodeAreInverse : Prop :=
  (∀ i : Instr, decode (encode i) = i) ∧ (∀ w : CmdWord, encode (decode w) = w)

/-- Rule R101: the opcode map, for every value of `arg`. -/
def Obligations.OpcodeMapIsTheSpecs : Prop :=
  ∀ a : Word,
    decode (0x0#4 ++ a : CmdWord) = .nop a ∧ decode (0x1#4 ++ a : CmdWord) = .crcClr a ∧
    decode (0x2#4 ++ a : CmdWord) = .crcUpd a ∧ decode (0x3#4 ++ a : CmdWord) = .tcParse a ∧
    decode (0x4#4 ++ a : CmdWord) = .tcParses a ∧ decode (0x5#4 ++ a : CmdWord) = .chNew a ∧
    decode (0x6#4 ++ a : CmdWord) = .chParse a ∧ decode (0x7#4 ++ a : CmdWord) = .chSer a ∧
    decode (0x8#4 ++ a : CmdWord) = .ctParse a ∧ decode (0x9#4 ++ a : CmdWord) = .ctAppend a ∧
    decode (0xA#4 ++ a : CmdWord) = .ctFind a ∧ decode (0xB#4 ++ a : CmdWord) = .ctRemove a ∧
    decode (0xC#4 ++ a : CmdWord) = .ctGet a ∧ decode (0xD#4 ++ a : CmdWord) = .ctSer a ∧
    decode (0xE#4 ++ a : CmdWord) = .reservedE a ∧ decode (0xF#4 ++ a : CmdWord) = .reservedF a

/-- Words of spec/95_test_vectors.md section 6 and program P3, written out from the encoding. -/
def Obligations.SampleCommandWordsDecode : Prop :=
  decode 0x000000000#36 = .nop 0#32 ∧ decode 0x0DEADBEEF#36 = .nop 0xDEADBEEF#32 ∧
  decode 0x5FFFFFFFF#36 = .chNew 0xFFFFFFFF#32 ∧ decode 0xC00000002#36 = .ctGet 2#32 ∧
  decode 0xCFFFFFFFF#36 = .ctGet 0xFFFFFFFF#32 ∧ decode 0xE00000000#36 = .reservedE 0#32 ∧
  decode 0xF12345678#36 = .reservedF 0x12345678#32 ∧ decode 0x800000000#36 = .ctParse 0#32

/-- Rule R100: `arg` is ignored by every command but `CT.GET`, so two words of one opcode have one effect. -/
def Obligations.ArgIsIgnoredExceptByCtGet : Prop :=
  ∀ (i j : Instr) (s : State), opcodeOf i = opcodeOf j → opcodeOf i ≠ 0xC#4 → exec i s = exec j s

/-! ### Reset, the host and the step -/

/-- Rules R39, R251: every field after reset, for every choice of the parameters; what is unspecified is unobservable. -/
def Obligations.ResetLeavesTheSpecsValues : Prop :=
  ∀ s : State, (s = State.reset ∨ ∃ c : Config, s = State.resetWith c) →
    s.crc = 0xFFFFFFFF#32 ∧ crcOut s = 0#32 ∧ tv s = false ∧ wv s = false ∧ s.cs = [] ∧ s.ib = [] ∧
    s.cur = 0 ∧ s.ob = [] ∧ s.err = 0#3 ∧ s.rsn = 0#2 ∧ s.found = false ∧ busy s = false ∧
    ibLen s = 0 ∧ obLen s = 0 ∧ nChunks s = 0 ∧
    tcode s = 0#32 ∧ prop s = 0#4 ∧ wLen s = 0#32 ∧ wType s = 0#32 ∧ wCrc s = 0#32 ∧
    (∀ i, wData i s = 0#8) ∧ (∀ i, outByte i s = 0#8)

/-- Rules R43, R253: the invariants hold in the reset state of every engine whose parameters are in rule R8's ranges. -/
def Obligations.ResetMeetsTheInvariant : Prop :=
  State.reset.Inv ∧ ∀ c : Config, c.wf = true → (State.resetWith c).Inv

/-- Rules R28, R30, R43: every step, a command's or the host's, keeps the invariants. The spec marks R43 "[derived: from
rules R23, R28, R30, R32, R33, R34]"; that a host's action is a step is log entry 1. -/
def Obligations.EveryStepKeepsTheInvariant : Prop :=
  ∀ s t : State, s.Inv → step s = .next t → t.Inv

/-- Rules R63, R210: when the host offers a command word, the step is that command run on the state, with the offer
taken off the host's actions. That the offers are a list in State is the model's choice (log entry 1). -/
def Obligations.StepRunsTheDecodedCommand : Prop :=
  ∀ (s : State) (w : CmdWord) (rest : List HostAction), s.pending = .issue w :: rest →
    step s = exec (decode w) { s with pending := rest } ∧
    ∀ i : Instr, w = encode i → step s = exec i { s with pending := rest }

/-- Rule R211, with the byte-serial form of rule R216: a load that fits replaces `IB` and clears `CUR`, nothing else; one
that does not fit `CAP_BUF` has no step (log entry 4), byte by byte either (log entry 24). That the load is taken off a list
is log entry 1. -/
def Obligations.HostLoadReplacesTheInputBuffer : Prop :=
  ∀ (s : State) (b : List Byte) (rest : List HostAction), s.pending = .load b :: rest →
    (¬ Over b.length s.cfg.capBuf → step s = .next { s with ib := b, cur := 0, pending := rest }) ∧
    (Over b.length s.cfg.capBuf → step s = .refused .loadNotEnabled) ∧
    (¬ Over b.length s.cfg.capBuf → ibStream b s = .next { s with ib := b, cur := 0 }) ∧
    (Over b.length s.cfg.capBuf → ibStream b s = .refused .loadNotEnabled)

/-- Rule R216: the widths and what the read ports show. `reg_data` carries `max(32, AW)` bits and shows the register wherever
it fits, which under the invariants is every register but an `NCHUNKS` of `2^32` or more with a narrower `AW`; what it then
shows is a free value (log entry 25), and the statement holds whatever that is. `ob_addr` has `AW` bits (log entry 26) and
under the invariants reaches every byte of `OB`. That `cmd_ready` is 1 and every offer is accepted in every state rests on
`BUSY` reading 0 wherever the host acts (rule R36) and on the busy interval being left out (log entry 8). -/
def Obligations.PortsShowTheViewsInTheirWidths : Prop :=
  (∀ (c : Config) (n : Nat), c.aw = .bits n →
    portWidth c .regData = .bits (max 32 n) ∧ portWidth c .obAddr = .bits n) ∧
  (∀ c : Config, c.aw = .unbounded → portWidth c .regData = .unbounded ∧ portWidth c .obAddr = .unbounded) ∧
  (∀ s : State, cmdReady s = true ∧ ∀ v : Bool, accepts v s = v) ∧
  (∀ (s : State) (n : BitVec 4),
    fitsWidth (regData n s) (portWidth s.cfg .regData) = true ∧
    (fitsWidth (readReg n s) (portWidth s.cfg .regData) = true → regData n s = readReg n s)) ∧
  (∀ (s : State) (n : BitVec 4), s.Inv →
    (n ≠ 7#4 → regData n s = readReg n s) ∧ (s.cs.length < 2 ^ 32 → regData n s = readReg n s) ∧
    (s.cfg.aw = .unbounded → regData n s = readReg n s)) ∧
  (∀ (s : State) (a : Nat), (fitsWidth a s.cfg.aw = false → obData a s = none) ∧
    (fitsWidth a s.cfg.aw = true → s.ob.length ≤ a → obData a s = some 0#8)) ∧
  (∀ (s : State) (a : Nat) (b : Byte), s.Inv → s.ob[a]? = some b → obData a s = some b) ∧
  (∀ (s : State) (a : Word), (wdData a s).toNat = readPort (.wData a) s)

/-- Rule R212: a host read changes no state (log entry 14), returns the bytes in range and 0 out of range. -/
def Obligations.HostReadsChangeNothing : Prop :=
  (∀ (s : State) (p : ReadPort) (rest : List HostAction), s.pending = .read p :: rest →
    step s = .next { s with pending := rest }) ∧
  (∀ (s : State) (n : BitVec 4), readPort (.reg n) s = readReg n s) ∧
  (∀ (s : State) (i : Nat) (b : Byte), s.ob[i]? = some b → readPort (.outByte i) s = b.toNat) ∧
  (∀ (s : State) (i : Nat), s.ob.length ≤ i → readPort (.outByte i) s = 0) ∧
  (∀ (s : State) (c : Chunk) (i : Word) (b : Byte), s.w = some c → c.data[i.toNat]? = some b →
    readPort (.wData i) s = b.toNat) ∧
  (∀ (s : State) (c : Chunk) (i : Word), s.w = some c → c.data.length ≤ i.toNat → readPort (.wData i) s = 0) ∧
  (∀ (s : State) (i : Word), s.w = none → readPort (.wData i) s = 0)

/-- Rules R240, R250: `rst` takes any state to the reset state of the same engine; with nothing offered, idle keeps all
state. That the host's later actions stay is the model's choice (log entries 1 and 9). -/
def Obligations.ResetAndIdleSteps : Prop :=
  (∀ (s : State) (rest : List HostAction), s.pending = .reset :: rest →
    step s = .next { State.resetWith s.cfg with pending := rest }) ∧
  (∀ s : State, s.pending = [] → step s = .next s)

/-- Rules R55, R210, R211: no step faults (no rule reads outside `IB`), and the one thing without a step is a load that
does not fit (log entries 4 and 5). -/
def Obligations.StepsNeverFault : Prop :=
  ∀ s : State, Safe (step s) ∧
    ∀ r, step s = .refused r →
      r = .loadNotEnabled ∧ ∃ b rest, s.pending = .load b :: rest ∧ Over b.length s.cfg.capBuf

/-- Rules R210, R217: every command completes in every state; an error and a refusal are next states too (log entry 2). -/
def Obligations.EveryCommandCompletes : Prop :=
  ∀ (i : Instr) (s : State), ∃ t, exec i s = .next t

/-! ### The commands -/

/-- Rule R214. -/
def Obligations.NopClearsTheResponseOnly : Prop :=
  decode 0x000000000#36 = .nop 0#32 ∧
  ∀ (a : Word) (s : State), decode (0x0#4 ++ a : CmdWord) = .nop a ∧
    exec (.nop a) s = .next { s with err := 0#3, rsn := 0#2, found := false }

/-- Rule R215: both reserved opcodes are refused with reason 1, whatever `arg`. -/
def Obligations.ReservedOpcodesAreRefused : Prop :=
  ∀ (a : Word) (s : State),
    decode (0xE#4 ++ a : CmdWord) = .reservedE a ∧ decode (0xF#4 ++ a : CmdWord) = .reservedF a ∧
    exec (.reservedE a) s = .next { s with err := 7#3, rsn := 1#2, found := false } ∧
    exec (.reservedF a) s = .next { s with err := 7#3, rsn := 1#2, found := false }

/-- Rule R127. -/
def Obligations.CrcClrStartsAComputation : Prop :=
  ∀ (a : Word) (s : State), decode (0x1#4 ++ a : CmdWord) = .crcClr a ∧
    ∃ t, exec (.crcClr a) s = .next t ∧
      t = { s with crc := 0xFFFFFFFF#32, err := 0#3, rsn := 0#2, found := false } ∧
      crcOut t = 0#32 ∧ exec (.crcClr a) t = .next t

/-- Rule R128, with its composition law: absorbing in two loads is absorbing the concatenation. -/
def Obligations.CrcUpdAbsorbsTheSpan : Prop :=
  (∀ (a : Word) (s : State), decode (0x2#4 ++ a : CmdWord) = .crcUpd a ∧
    exec (.crcUpd a) s = .next { s with
      crc := crcRaw s.crc (span s), cur := s.ib.length, err := 0#3, rsn := 0#2, found := false }) ∧
  (∀ s : State, s.ib.length ≤ s.cur → crcRaw s.crc (span s) = s.crc) ∧
  (∀ (a : Word) (s : State) (x y : List Byte), ∃ t u v,
    exec (.crcUpd a) { s with ib := x, cur := 0 } = .next t ∧ exec (.crcUpd a) { t with ib := y, cur := 0 } = .next u ∧
    exec (.crcUpd a) { s with ib := x ++ y, cur := 0 } = .next v ∧ u.crc = v.crc)

/-- Rule R148, its three outcomes on the first four bytes of the span. -/
def Obligations.TcParseTakesFourBytes : Prop :=
  ∀ (arg : Word) (s : State), decode (0x3#4 ++ arg : CmdWord) = .tcParse arg ∧
    ((span s).length < 4 →
      exec (.tcParse arg) s = .next { s with err := 7#3, rsn := 2#2, found := false }) ∧
    (∀ (t : TypeCode) (rest : List Byte), span s = typeBytes t ++ rest → FourLetters t →
      exec (.tcParse arg) s = .next { s with
        t := some t, cur := s.cur + 4, err := 0#3, rsn := 0#2, found := false }) ∧
    (∀ (t : TypeCode) (rest : List Byte), span s = typeBytes t ++ rest → ¬ FourLetters t →
      exec (.tcParse arg) s = .next { s with t := none, err := 1#3, rsn := 0#2, found := false })

/-- Rule R149, its two outcomes on the whole span. -/
def Obligations.TcParsesTakesTheWholeSpan : Prop :=
  ∀ (arg : Word) (s : State), decode (0x4#4 ++ arg : CmdWord) = .tcParses arg ∧
    (∀ t : TypeCode, span s = typeBytes t → FourLetters t →
      exec (.tcParses arg) s = .next { s with
        t := some t, cur := s.ib.length, err := 0#3, rsn := 0#2, found := false }) ∧
    ((∀ t : TypeCode, span s = typeBytes t → ¬ FourLetters t) →
      exec (.tcParses arg) s = .next { s with t := none, err := 1#3, rsn := 0#2, found := false })

/-- Rules R161, R163: refusals in their order, then the composed chunk with its computed checksum. -/
def Obligations.ChNewComposesAChunk : Prop :=
  ∀ (arg : Word) (s : State), decode (0x5#4 ++ arg : CmdWord) = .chNew arg ∧
    (s.t = none → exec (.chNew arg) s = .next { s with err := 7#3, rsn := 2#2, found := false }) ∧
    (∀ t, s.t = some t →
      (2 ^ 32 - 1 < (span s).length →
        exec (.chNew arg) s = .next { s with err := 7#3, rsn := 2#2, found := false }) ∧
      ((span s).length ≤ 2 ^ 32 - 1 → s.cfg.capData < (span s).length →
        exec (.chNew arg) s = .next { s with err := 7#3, rsn := 3#2, found := false }) ∧
      ((span s).length ≤ 2 ^ 32 - 1 → (span s).length ≤ s.cfg.capData →
        exec (.chNew arg) s = .next { s with
          w := some ⟨t, span s, crc32 (typeBytes t ++ span s)⟩, cur := s.ib.length,
          err := 0#3, rsn := 0#2, found := false }))

/-- Rule R165, over `parse_chunk` (rule R164, stated in `ParseChunkFollowsTheSixSteps`). -/
def Obligations.ChParseTakesOneFrame : Prop :=
  ∀ (arg : Word) (s : State), decode (0x6#4 ++ arg : CmdWord) = .chParse arg ∧
    (∀ k, parseChunk (span s) = .error k →
      exec (.chParse arg) s = .next { s with w := none, err := errCode k, rsn := 0#2, found := false }) ∧
    (∀ c n, parseChunk (span s) = .ok (c, n) →
      (s.cfg.capData < c.data.length →
        exec (.chParse arg) s = .next { s with err := 7#3, rsn := 3#2, found := false }) ∧
      (c.data.length ≤ s.cfg.capData →
        exec (.chParse arg) s = .next { s with
          w := some c, cur := s.cur + n, err := 0#3, rsn := 0#2, found := false }))

/-- Rules R162, R168: the frame, written whole into `OB`. -/
def Obligations.ChSerWritesTheFrame : Prop :=
  ∀ (arg : Word) (s : State), decode (0x7#4 ++ arg : CmdWord) = .chSer arg ∧
    (s.w = none → exec (.chSer arg) s = .next { s with err := 7#3, rsn := 2#2, found := false }) ∧
    (∀ c, s.w = some c →
      (Over (12 + c.data.length) s.cfg.capBuf →
        exec (.chSer arg) s = .next { s with err := 7#3, rsn := 3#2, found := false }) ∧
      (¬ Over (12 + c.data.length) s.cfg.capBuf →
        exec (.chSer arg) s = .next { s with
          ob := be32 (BitVec.ofNat 32 c.data.length) ++ typeBytes c.type ++ c.data ++ be32 c.crc,
          err := 0#3, rsn := 0#2, found := false }))

/-- Rule R182, over `parse_container` (rule R181, stated in `ParseContainerIsTheSpecsLoop`). -/
def Obligations.CtParseReplacesTheStore : Prop :=
  ∀ (arg : Word) (s : State), decode (0x8#4 ++ arg : CmdWord) = .ctParse arg ∧
    (∀ k, parseContainer (span s) = .error k →
      exec (.ctParse arg) s = .next { s with err := errCode k, rsn := 0#2, found := false }) ∧
    (∀ l, parseContainer (span s) = .ok l →
      (Over l.length s.cfg.capChunks ∨ (∃ c ∈ l, s.cfg.capData < c.data.length) ∨
          Over (l.map fun c => c.data.length).sum s.cfg.capStore →
        exec (.ctParse arg) s = .next { s with err := 7#3, rsn := 3#2, found := false }) ∧
      (¬ Over l.length s.cfg.capChunks → (∀ c ∈ l, c.data.length ≤ s.cfg.capData) →
          ¬ Over (l.map fun c => c.data.length).sum s.cfg.capStore →
        exec (.ctParse arg) s = .next { s with
          cs := l, cur := s.ib.length, err := 0#3, rsn := 0#2, found := false }))

/-- Rules R186, R187: at the tail always, with no test of the chunk's type or of the chunks there. -/
def Obligations.CtAppendAddsAtTheTail : Prop :=
  ∀ (arg : Word) (s : State), decode (0x9#4 ++ arg : CmdWord) = .ctAppend arg ∧
    (s.w = none → exec (.ctAppend arg) s = .next { s with err := 7#3, rsn := 2#2, found := false }) ∧
    (∀ c, s.w = some c →
      (Over (s.cs.length + 1) s.cfg.capChunks ∨
          Over ((s.cs.map fun c => c.data.length).sum + c.data.length) s.cfg.capStore →
        exec (.ctAppend arg) s = .next { s with err := 7#3, rsn := 3#2, found := false }) ∧
      (¬ Over (s.cs.length + 1) s.cfg.capChunks →
          ¬ Over ((s.cs.map fun c => c.data.length).sum + c.data.length) s.cfg.capStore →
        exec (.ctAppend arg) s = .next { s with cs := s.cs ++ [c], err := 0#3, rsn := 0#2, found := false }))

/-- Rule R189: the first chunk whose type bytes are the span, or an absence that is no error. -/
def Obligations.CtFindReturnsTheFirstMatch : Prop :=
  ∀ (arg : Word) (s : State), decode (0xA#4 ++ arg : CmdWord) = .ctFind arg ∧
    (∀ i c, FirstMatch s.cs (span s) i c →
      exec (.ctFind arg) s = .next { s with
        w := some c, cur := s.ib.length, err := 0#3, rsn := 0#2, found := true }) ∧
    (NoMatch s.cs (span s) →
      exec (.ctFind arg) s = .next { s with
        w := none, cur := s.ib.length, err := 0#3, rsn := 0#2, found := false })

/-- Rule R192: the first match leaves the store whole and comes into `W`; no match is `NotFound`. -/
def Obligations.CtRemoveTakesOutTheFirstMatch : Prop :=
  ∀ (arg : Word) (s : State), decode (0xB#4 ++ arg : CmdWord) = .ctRemove arg ∧
    (∀ i c, FirstMatch s.cs (span s) i c →
      exec (.ctRemove arg) s = .next { s with
        w := some c, cs := s.cs.take i ++ s.cs.drop (i + 1), cur := s.ib.length,
        err := 0#3, rsn := 0#2, found := true } ∧
      (s.cs.take i ++ s.cs.drop (i + 1)).length + 1 = s.cs.length) ∧
    (NoMatch s.cs (span s) →
      exec (.ctRemove arg) s = .next { s with w := none, err := 6#3, rsn := 0#2, found := false })

/-- Rule R195. -/
def Obligations.CtGetCopiesByIndex : Prop :=
  ∀ (arg : Word) (s : State), decode (0xC#4 ++ arg : CmdWord) = .ctGet arg ∧
    (s.cs.length ≤ arg.toNat →
      exec (.ctGet arg) s = .next { s with err := 7#3, rsn := 2#2, found := false }) ∧
    (∀ c, s.cs[arg.toNat]? = some c →
      exec (.ctGet arg) s = .next { s with w := some c, err := 0#3, rsn := 0#2, found := false })

/-- Rules R185, R198: the signature and the frames in list order, written whole into `OB`. -/
def Obligations.CtSerWritesTheContainer : Prop :=
  ∀ (arg : Word) (s : State), decode (0xD#4 ++ arg : CmdWord) = .ctSer arg ∧
    (Over (8 + (s.cs.map fun c => 12 + c.data.length).sum) s.cfg.capBuf →
      exec (.ctSer arg) s = .next { s with err := 7#3, rsn := 3#2, found := false }) ∧
    (¬ Over (8 + (s.cs.map fun c => 12 + c.data.length).sum) s.cfg.capBuf →
      exec (.ctSer arg) s = .next { s with
        ob := [0x89#8, 0x50#8, 0x4E#8, 0x47#8, 0x0D#8, 0x0A#8, 0x1A#8, 0x0A#8] ++ (s.cs.map frame).flatten,
        err := 0#3, rsn := 0#2, found := false })

/-! ### The CRC -/

/-- Rules R121, R122: the one-bit step is the shift register with the listed taps, a byte is eight of them, a string is a
fold that composes. -/
def Obligations.CrcStepIsTheShiftRegister : Prop :=
  (∀ (c : Word) (i : Nat), i ≤ 30 →
    (crcShift c).getLsbD i = (c.getLsbD (i + 1) ^^ (polyR.getLsbD i && c.getLsbD 0))) ∧
  (∀ c : Word, (crcShift c).getLsbD 31 = c.getLsbD 0) ∧
  (∀ i : Nat, polyR.getLsbD i = true ↔ i ∈ [31, 30, 29, 27, 26, 24, 23, 21, 20, 19, 15, 9, 8, 5]) ∧
  (∀ (c : Word) (b : Byte), crcByte c b = crcShift^[8] (c ^^^ b.zeroExtend 32)) ∧
  crcByte 0xFFFFFFFF#32 0x61#8 = 0x174841BC#32 ∧
  (∀ c : Word, crcRaw c [] = c) ∧
  (∀ (c : Word) (b : Byte) (s : List Byte), crcRaw c (b :: s) = crcRaw (crcByte c b) s) ∧
  (∀ (c : Word) (s t : List Byte), crcRaw c (s ++ t) = crcRaw (crcRaw c s) t)

/-- Rules R123, R135: the listed table is `TAB`, and the table form equals the bit-serial step for every state and byte.
The spec marks both "[derived" from rule R121. -/
def Obligations.CrcTableFormEqualsTheBitSerialStep : Prop :=
  crcTab.length = 256 ∧ (∀ b : Byte, crcTab[b.toNat]? = some (crcByte 0#32 b)) ∧
  ∀ (c : Word) (b : Byte), crcByte c b = crcByteByTable c b

/-- Rule R130: for a fixed byte the step is a bijection on states, for a fixed state it is injective in the byte.
The spec marks it "[derived: `crc_shift` is invertible since bit 31 of its result is the bit it shifted out]". -/
def Obligations.CrcStepIsABijection : Prop :=
  (∀ b : Byte, Function.Bijective (fun c : Word => crcByte c b)) ∧
  (∀ c : Word, Function.Injective (fun b : Byte => crcByte c b)) ∧
  crcRaw 0xFFFFFFFF#32 [0xFF#8, 0xFF#8, 0xFF#8, 0xFF#8] = 0#32 ∧ crcByte 0#32 0#8 = 0#32

/-- Rule R131: a change confined to one byte changes the CRC; a change of one bit is such a change. The spec marks it
"[derived: from rule R130". -/
def Obligations.OneByteChangeChangesTheCrc : Prop :=
  (∀ (p q : List Byte) (a b : Byte), a ≠ b → crc32 (p ++ a :: q) ≠ crc32 (p ++ b :: q)) ∧
  (∀ (p q : List Byte) (a : Byte) (k : Nat), k < 8 →
    crc32 (p ++ (a ^^^ (1#8 <<< k)) :: q) ≠ crc32 (p ++ a :: q))

/-- Rule R129: the CRC unit run on `type ∥ data` shows the checksum the chunk unit computes for that type and data.
The spec marks it "[derived: from rules R122, R125 and `42_chunk.md` rules R163, R165]"; the run is log entry 1's. -/
def Obligations.CrcUnitAgreesWithTheChunkUnit : Prop :=
  ∀ (s : State) (t : TypeCode) (d : List Byte), ¬ Over (typeBytes t ++ d).length s.cfg.capBuf →
    ∃ u, runActions (pseudoCrc32 (typeBytes t ++ d)) s = .next u ∧ crcOut u = crc32 (typeBytes t ++ d) ∧
      (∀ v : State, v.t = some t → span v = d → d.length ≤ 2 ^ 32 - 1 → d.length ≤ v.cfg.capData →
        ∃ x, exec (.chNew 0#32) v = .next x ∧ wv x = true ∧ wCrc x = crcOut u) ∧
      (∀ c n b, parseChunk b = .ok (c, n) → c.type = t → c.data = d → c.crc = crcOut u)

/-! ### Type codes and views -/

/-- Rules R24, R25, R142 to R146: the views of `T`, zero when `TV = 0`. -/
def Obligations.TypeViewsShowTheCode : Prop :=
  (∀ s : State, s.t = none → tv s = false ∧ tcode s = 0#32 ∧ prop s = 0#4) ∧
  (∀ (s : State) (t : TypeCode), s.t = some t →
    tv s = true ∧ (tcode s).extractLsb' 24 8 = t.b0 ∧ (tcode s).extractLsb' 16 8 = t.b1 ∧
    (tcode s).extractLsb' 8 8 = t.b2 ∧ (tcode s).extractLsb' 0 8 = t.b3 ∧
    (prop s).getLsbD 0 = !t.b0.getLsbD 5 ∧ (prop s).getLsbD 1 = !t.b1.getLsbD 5 ∧
    (prop s).getLsbD 2 = !t.b2.getLsbD 5 ∧ (prop s).getLsbD 3 = t.b3.getLsbD 5)

/-- Rule R150: after `LOAD t; TC.PARSE` of four bytes, either the code is valid and read back exactly, or it is rejected. -/
def Obligations.TypeCodeRoundTrip : Prop :=
  ∀ (a : Word) (s : State) (t : TypeCode),
    ∃ u, exec (.tcParse a) { s with ib := typeBytes t, cur := 0 } = .next u ∧
      ((FourLetters t ∧ tv u = true ∧ be32 (tcode u) = typeBytes t ∧ u.err = 0#3) ∨
       (¬ FourLetters t ∧ tv u = false ∧ u.err = 1#3))

/-- Rule R36: the layout of `STATUS`; every command overwrites the response fields and none reads them. -/
def Obligations.StatusFieldsAndTheirUse : Prop :=
  (∀ s : State,
    (status s).extractLsb' 0 3 = s.err ∧ (status s).extractLsb' 3 2 = s.rsn ∧ (status s).getLsbD 5 = s.found ∧
    (status s).getLsbD 6 = s.t.isSome ∧ (status s).getLsbD 7 = s.w.isSome ∧
    (status s).extractLsb' 8 4 = prop s ∧ (status s).getLsbD 12 = false ∧ (status s).extractLsb' 13 19 = 0#19) ∧
  (∀ (i : Instr) (s : State) (e : BitVec 3) (r : BitVec 2) (f : Bool),
    exec i { s with err := e, rsn := r, found := f } = exec i s) ∧
  (∀ (i : Instr) (s t : State), exec i s = .next t →
    (t.err ≠ 7#3 → t.rsn = 0#2) ∧ (t.err = 7#3 → t.rsn ≠ 0#2) ∧
    (t.found = true ↔ (opcodeOf i = 0xA#4 ∨ opcodeOf i = 0xB#4) ∧ ∃ j c, FirstMatch s.cs (span s) j c))

/-- Rules R27, R31, R38: what each register number reads, and that under the invariants every value fits the register's
width, so no view is ever cut. -/
def Obligations.RegistersReadWithinTheirWidths : Prop :=
  (∀ s : State,
    readReg 0#4 s = (status s).toNat ∧ readReg 1#4 s = s.crc.toNat ∧
    readReg 2#4 s = (s.crc ^^^ 0xFFFFFFFF#32).toNat ∧ readReg 3#4 s = (tcode s).toNat ∧
    readReg 4#4 s = (wLen s).toNat ∧ readReg 5#4 s = (wType s).toNat ∧ readReg 6#4 s = (wCrc s).toNat ∧
    readReg 7#4 s = s.cs.length ∧ readReg 8#4 s = s.cur ∧ readReg 9#4 s = s.ib.length ∧
    readReg 10#4 s = s.ob.length ∧ ∀ n : BitVec 4, 11 ≤ n.toNat → readReg n s = 0) ∧
  (∀ s : State, s.Inv →
    (∀ n : BitVec 4, fitsWidth (readReg n s) (regWidth s.cfg n) = true) ∧
    (∀ c, s.w = some c → (wLen s).toNat = c.data.length ∧ wType s = be32dec (typeBytes c.type) ∧ wCrc s = c.crc))

/-- Rule R13: the two big-endian conversions are inverse, and decoding is the stated sum. -/
def Obligations.BigEndianConversionsAreInverse : Prop :=
  (∀ v : Word, be32dec (be32 v) = v) ∧
  (∀ a b c d : Byte, be32 (be32dec [a, b, c, d]) = [a, b, c, d] ∧ (be32dec [a, b, c, d]).toNat = be a b c d)

/-! ### Chunks -/

/-- Rules R84, R164, R166, R167: `parse_chunk` on the bytes themselves, every check in its order. -/
def Obligations.ParseChunkFollowsTheSixSteps : Prop :=
  (∀ s : List Byte, s.length < 12 → parseChunk s = .error .truncated) ∧
  (∀ (l0 l1 l2 l3 : Byte) (t : TypeCode) (rest : List Byte), 4 ≤ rest.length →
    (¬ FourLetters t → parseChunk ([l0, l1, l2, l3] ++ typeBytes t ++ rest) = .error .invalidTypeCode) ∧
    (FourLetters t → rest.length < be l0 l1 l2 l3 + 4 →
      parseChunk ([l0, l1, l2, l3] ++ typeBytes t ++ rest) = .error .truncated) ∧
    (∀ (d x : List Byte) (k0 k1 k2 k3 : Byte), FourLetters t → rest = d ++ [k0, k1, k2, k3] ++ x →
      d.length = be l0 l1 l2 l3 →
      ((crc32 (typeBytes t ++ d)).toNat ≠ be k0 k1 k2 k3 →
        parseChunk ([l0, l1, l2, l3] ++ typeBytes t ++ rest) = .error .checksumMismatch) ∧
      ((crc32 (typeBytes t ++ d)).toNat = be k0 k1 k2 k3 →
        parseChunk ([l0, l1, l2, l3] ++ typeBytes t ++ rest) =
          .ok (⟨t, d, crc32 (typeBytes t ++ d)⟩, 12 + be l0 l1 l2 l3))))

/-- Rules R89, R171: the frame encoding is exact both ways, with any bytes after the frame. -/
def Obligations.FrameEncodingIsExactBothWays : Prop :=
  (∀ (c : Chunk) (x : List Byte), GoodChunk c → parseChunk (frame c ++ x) = .ok (c, 12 + c.data.length)) ∧
  (∀ (s : List Byte) (c : Chunk) (n : Nat), parseChunk s = .ok (c, n) →
    frame c = s.take n ∧ n ≤ s.length ∧ n = 12 + c.data.length ∧ GoodChunk c)

/-- Rule R171 ("[derived: from rules R161, R162, R164]"), engine form: a composed chunk, serialized, loaded back and parsed, is the same chunk. -/
def Obligations.ComposedChunkSurvivesTheWire : Prop :=
  ∀ s a b : State, (∀ t, s.t = some t → FourLetters t) →
    exec (.chNew 0#32) s = .next a → a.err = 0#3 → exec (.chSer 0#32) a = .next b → b.err = 0#3 →
    ∃ c, exec (.chParse 0#32) { b with ib := b.ob, cur := 0 } = .next c ∧
      c.err = 0#3 ∧ c.w = a.w ∧ c.w.isSome = true ∧ c.cur = b.ob.length

/-- Rule R172 ("[derived: from rule R164 and `40_crc.md` rule R131]"): what each kind of damage to a frame alone in the span is reported as. -/
def Obligations.DamagedFramesAreRejected : Prop :=
  ∀ (t : TypeCode) (d : List Byte), FourLetters t → d.length ≤ 2 ^ 32 - 1 →
    (∀ (p q : List Byte) (a b : Byte), d = p ++ a :: q → a ≠ b →
      parseChunk (be32 (BitVec.ofNat 32 d.length) ++ typeBytes t ++ (p ++ b :: q) ++
        be32 (crc32 (typeBytes t ++ d))) = .error .checksumMismatch) ∧
    (∀ (u : TypeCode) (p q : List Byte) (a b : Byte), typeBytes t = p ++ a :: q → typeBytes u = p ++ b :: q → a ≠ b →
      FourLetters u →
      parseChunk (be32 (BitVec.ofNat 32 d.length) ++ typeBytes u ++ d ++ be32 (crc32 (typeBytes t ++ d))) =
        .error .checksumMismatch) ∧
    (∀ u : TypeCode, ¬ FourLetters u →
      parseChunk (be32 (BitVec.ofNat 32 d.length) ++ typeBytes u ++ d ++ be32 (crc32 (typeBytes t ++ d))) =
        .error .invalidTypeCode) ∧
    (∀ v : Word, v ≠ crc32 (typeBytes t ++ d) →
      parseChunk (be32 (BitVec.ofNat 32 d.length) ++ typeBytes t ++ d ++ be32 v) = .error .checksumMismatch) ∧
    (∀ n : Word, d.length < n.toNat →
      parseChunk (be32 n ++ typeBytes t ++ d ++ be32 (crc32 (typeBytes t ++ d))) = .error .truncated)

/-! ### Containers -/

/-- Rule R181: the signature test, then one `parse_chunk` after another until no byte is left. -/
def Obligations.ParseContainerIsTheSpecsLoop : Prop :=
  (∀ s : List Byte, (s.length < 8 ∨ s.take 8 ≠ sig) → parseContainer s = .error .badSignature) ∧
  (∀ r : List Byte, parseContainer (sig ++ r) = parseFrames r) ∧
  parseFrames [] = .ok [] ∧
  (∀ (s : List Byte) (k : ErrorKind), s ≠ [] → parseChunk s = .error k → parseFrames s = .error k) ∧
  (∀ (s : List Byte) (c : Chunk) (n : Nat), parseChunk s = .ok (c, n) →
    (∀ k, parseFrames (s.drop n) = .error k → parseFrames s = .error k) ∧
    (∀ l, parseFrames (s.drop n) = .ok l → parseFrames s = .ok (c :: l)))

/-- Rule R183 ("[derived: from rule R181 and `42_chunk.md` rule R166]"): the first failure in buffer order is the one reported, and later bytes are never looked at; 1 to 11 bytes
after the last whole frame are `Truncated` (rule R88). -/
def Obligations.FirstFailureIsReported : Prop :=
  (∀ (l : List Chunk) (rest : List Byte) (k : ErrorKind), (∀ c ∈ l, GoodChunk c) → rest ≠ [] →
    parseChunk rest = .error k → parseContainer (serContainer l ++ rest) = .error k) ∧
  (∀ (l : List Chunk) (rest : List Byte), (∀ c ∈ l, GoodChunk c) → 1 ≤ rest.length → rest.length ≤ 11 →
    parseContainer (serContainer l ++ rest) = .error .truncated) ∧
  (∀ (s : List Byte) (k : ErrorKind), parseContainer s = .error k →
    k ∈ [.badSignature, .truncated, .invalidTypeCode, .checksumMismatch])

/-- Rule R199 ("[derived: from rules R181, R185"), parse after serialize. -/
def Obligations.SerializedContainersParseBack : Prop :=
  ∀ l : List Chunk, (∀ c ∈ l, GoodChunk c) → parseContainer (serContainer l) = .ok l

/-- Rule R199 ("[derived: from rules R181, R185"), serialize after parse, for every buffer that parses; every parsed chunk is a good one (rule R28), and
there is at least 12 bytes of buffer to each (rule R184). -/
def Obligations.ParsedContainersSerializeBack : Prop :=
  ∀ (s : List Byte) (l : List Chunk), parseContainer s = .ok l →
    serContainer l = s ∧ (∀ c ∈ l, GoodChunk c) ∧ 8 + 12 * l.length ≤ s.length

/-- Rule R199 ("[derived: from rules R181, R185"), engine form: `LOAD s; CT.PARSE; CT.SER` leaves `OB = s`. The run is
log entry 1's. -/
def Obligations.LoadParseSerializeGivesTheBuffer : Prop :=
  ∀ (st : State) (s : List Byte) (l : List Chunk), ¬ Over s.length st.cfg.capBuf → parseContainer s = .ok l →
    ¬ Over l.length st.cfg.capChunks → (∀ c ∈ l, c.data.length ≤ st.cfg.capData) →
    ¬ Over (l.map fun c => c.data.length).sum st.cfg.capStore →
    ∃ t, runActions [.load s, command (.ctParse 0#32), command (.ctSer 0#32)] st = .next t ∧
      t.err = 0#3 ∧ t.cs = l ∧ t.ob = s ∧ t.w = st.w ∧ t.t = st.t ∧ t.crc = st.crc

/-- Rule R188: `find_first` is the least index with the type, and absence is that there is none; a string that is not
four letters is absent from every store of good chunks. -/
def Obligations.FindFirstIsTheLeastIndex : Prop :=
  (∀ (l : List Chunk) (t : List Byte) (i : Nat) (c : Chunk), findFirst l t = some (i, c) ↔ FirstMatch l t i c) ∧
  (∀ (l : List Chunk) (t : List Byte), findFirst l t = none ↔ NoMatch l t) ∧
  (∀ (l : List Chunk) (t : List Byte), (∀ c ∈ l, GoodChunk c) → (∀ u, t = typeBytes u → ¬ FourLetters u) →
    findFirst l t = none)

/-- Rule R200 ("[derived: from rules R186, R188, R189, R192]"): append, look up, remove, when no chunk of the type was there before. -/
def Obligations.AppendLookUpRemove : Prop :=
  ∀ (s : State) (c : Chunk), s.w = some c → NoMatch s.cs (typeBytes c.type) →
    ¬ Over (s.cs.length + 1) s.cfg.capChunks →
    ¬ Over ((s.cs.map fun c => c.data.length).sum + c.data.length) s.cfg.capStore →
    ∃ a, exec (.ctAppend 0#32) s = .next a ∧ FirstMatch a.cs (typeBytes c.type) (a.cs.length - 1) c ∧
      ∀ b : State, b.cs = a.cs → span b = typeBytes c.type →
        (∃ f, exec (.ctFind 0#32) b = .next f ∧ f.found = true ∧ f.w = some c ∧ f.cs = a.cs) ∧
        (∃ r, exec (.ctRemove 0#32) b = .next r ∧ r.found = true ∧ r.w = some c ∧ r.cs = s.cs ∧
          NoMatch r.cs (typeBytes c.type))

/-- Rules R187, R192: a removal takes one chunk out and keeps the others in their order. -/
def Obligations.RemovalKeepsTheOrderOfTheRest : Prop :=
  ∀ (a : Word) (s t : State), exec (.ctRemove a) s = .next t → t.err = 0#3 →
    ∃ (pre post : List Chunk) (c : Chunk), s.cs = pre ++ c :: post ∧ t.cs = pre ++ post ∧ t.w = some c ∧
      typeBytes c.type = span s ∧ NoMatch pre (span s)

/-! ### Errors and refusals -/

/-- Rule R229: the state after an error is exactly the state before the command with the response written and the
result register marked empty. -/
def Obligations.ErrorsArePrecise : Prop :=
  ∀ (i : Instr) (s t : State), exec i s = .next t → endedInError t →
    t = { s with
      err := t.err, rsn := 0#2, found := false,
      t := if opcodeOf i = 0x3#4 ∨ opcodeOf i = 0x4#4 then none else s.t,
      w := if opcodeOf i = 0x6#4 ∨ opcodeOf i = 0xB#4 then none else s.w }

/-- Rule R225: a refused command writes the response and nothing else at all; reason 1 is exactly a reserved opcode. -/
def Obligations.RefusalsWriteTheResponseOnly : Prop :=
  ∀ (i : Instr) (s t : State), exec i s = .next t → t.err = 7#3 →
    t = { s with err := 7#3, rsn := t.rsn, found := false } ∧
    (t.rsn = 1#2 ↔ opcodeOf i = 0xE#4 ∨ opcodeOf i = 0xF#4) ∧
    (t.rsn = 1#2 ∨ t.rsn = 2#2 ∨ t.rsn = 3#2)

/-- Rule R227: the precondition refusals, exactly the table. -/
def Obligations.PreconditionRefusalsAreTheTable : Prop :=
  ∀ (i : Instr) (s t : State), exec i s = .next t →
    ((t.err = 7#3 ∧ t.rsn = 2#2) ↔
      (opcodeOf i = 0x3#4 ∧ (span s).length < 4) ∨
      (opcodeOf i = 0x5#4 ∧ (s.t = none ∨ 2 ^ 32 - 1 < (span s).length)) ∨
      (opcodeOf i = 0x7#4 ∧ s.w = none) ∨ (opcodeOf i = 0x9#4 ∧ s.w = none) ∨
      (opcodeOf i = 0xC#4 ∧ s.cs.length ≤ i.arg.toNat))

/-- Rules R226, R228: the capacity refusals, exactly the table, each after the preconditions and the document's checks;
with the document-faithful parameters none can happen. -/
def Obligations.CapacityRefusalsAreTheTable : Prop :=
  ∀ (i : Instr) (s t : State), exec i s = .next t →
    ((t.err = 7#3 ∧ t.rsn = 3#2) ↔
      (opcodeOf i = 0x5#4 ∧ s.t ≠ none ∧ (span s).length ≤ 2 ^ 32 - 1 ∧
        s.cfg.capData < (span s).length) ∨
      (opcodeOf i = 0x6#4 ∧ ∃ c n, parseChunk (span s) = .ok (c, n) ∧ s.cfg.capData < c.data.length) ∨
      (opcodeOf i = 0x7#4 ∧ ∃ c, s.w = some c ∧ Over (12 + c.data.length) s.cfg.capBuf) ∨
      (opcodeOf i = 0x8#4 ∧ ∃ l, parseContainer (span s) = .ok l ∧
        (Over l.length s.cfg.capChunks ∨ (∃ c ∈ l, s.cfg.capData < c.data.length) ∨
          Over (l.map fun c => c.data.length).sum s.cfg.capStore)) ∨
      (opcodeOf i = 0x9#4 ∧ ∃ c, s.w = some c ∧ (Over (s.cs.length + 1) s.cfg.capChunks ∨
        Over ((s.cs.map fun c => c.data.length).sum + c.data.length) s.cfg.capStore)) ∨
      (opcodeOf i = 0xD#4 ∧ Over (8 + (s.cs.map fun c => 12 + c.data.length).sum) s.cfg.capBuf)) ∧
    (s.cfg = Config.docFaithful → ¬ (t.err = 7#3 ∧ t.rsn = 3#2))

/-- Rules R220 to R222: which command ends with which error code, and when; code 4 never. -/
def Obligations.ErrorCodesAreRaisedAsTabled : Prop :=
  ∀ (i : Instr) (s t : State), exec i s = .next t →
    (t.err = 1#3 ↔
      (opcodeOf i = 0x3#4 ∧ ∃ u r, span s = typeBytes u ++ r ∧ ¬ FourLetters u) ∨
      (opcodeOf i = 0x4#4 ∧ ∀ u, span s = typeBytes u → ¬ FourLetters u) ∨
      (opcodeOf i = 0x6#4 ∧ parseChunk (span s) = .error .invalidTypeCode) ∨
      (opcodeOf i = 0x8#4 ∧ parseContainer (span s) = .error .invalidTypeCode)) ∧
    (t.err = 2#3 ↔
      (opcodeOf i = 0x6#4 ∧ parseChunk (span s) = .error .truncated) ∨
      (opcodeOf i = 0x8#4 ∧ parseContainer (span s) = .error .truncated)) ∧
    (t.err = 3#3 ↔
      (opcodeOf i = 0x6#4 ∧ parseChunk (span s) = .error .checksumMismatch) ∨
      (opcodeOf i = 0x8#4 ∧ parseContainer (span s) = .error .checksumMismatch)) ∧
    t.err ≠ 4#3 ∧
    (t.err = 5#3 ↔ opcodeOf i = 0x8#4 ∧
      ((span s).length < 8 ∨ (span s).take 8 ≠ sig)) ∧
    (t.err = 6#3 ↔ opcodeOf i = 0xB#4 ∧ NoMatch s.cs (span s))

/-- Rule R54: how far the cursor moves, and that an error or a refusal leaves it. -/
def Obligations.CursorMovesPastWhatIsConsumed : Prop :=
  ∀ (i : Instr) (s t : State), s.cur ≤ s.ib.length → exec i s = .next t →
    span s = s.ib.drop s.cur ∧ (t.err ≠ 0#3 → t.cur = s.cur) ∧
    (t.err = 0#3 →
      (opcodeOf i ∈ [0x2#4, 0x4#4, 0x5#4, 0x8#4, 0xA#4, 0xB#4] → t.cur = s.cur + (span s).length) ∧
      (opcodeOf i = 0x4#4 → (span s).length = 4) ∧
      (opcodeOf i = 0x3#4 → t.cur = s.cur + 4) ∧
      (opcodeOf i = 0x6#4 → t.cur = s.cur + (12 + (be32dec ((span s).take 4)).toNat)) ∧
      (opcodeOf i ∈ [0x0#4, 0x1#4, 0x7#4, 0x9#4, 0xC#4, 0xD#4] → t.cur = s.cur))

/-- Rule R260: what each command does on an empty span; a command that erred fails the same way again. -/
def Obligations.EmptySpanAndRepeatedErrors : Prop :=
  (∀ s : State, s.cur = s.ib.length →
    exec (.ctFind 0#32) s = .next { s with w := none, err := 0#3, rsn := 0#2, found := false } ∧
    exec (.ctRemove 0#32) s = .next { s with w := none, err := 6#3, rsn := 0#2, found := false } ∧
    exec (.tcParses 0#32) s = .next { s with t := none, err := 1#3, rsn := 0#2, found := false } ∧
    (∀ t, s.t = some t → exec (.chNew 0#32) s = .next { s with
      w := some ⟨t, [], crc32 (typeBytes t)⟩, err := 0#3, rsn := 0#2, found := false }) ∧
    exec (.ctParse 0#32) s = .next { s with err := 5#3, rsn := 0#2, found := false } ∧
    exec (.chParse 0#32) s = .next { s with w := none, err := 2#3, rsn := 0#2, found := false } ∧
    exec (.crcUpd 0#32) s = .next { s with err := 0#3, rsn := 0#2, found := false } ∧
    exec (.tcParse 0#32) s = .next { s with err := 7#3, rsn := 2#2, found := false }) ∧
  (∀ (i : Instr) (s t : State), exec i s = .next t → t.err = 0#3 →
    opcodeOf i ∈ [0x2#4, 0x4#4, 0x5#4, 0x8#4, 0xA#4, 0xB#4] → t.cur = t.ib.length) ∧
  (∀ (i : Instr) (s t : State), exec i s = .next t → endedInError t →
    t.cur = s.cur ∧ t.ib = s.ib ∧ exec i t = .next t)

/-! ### Who writes and who reads what -/

/-- Rules R37, R56, R68: the `-` and `r` cells of the table, for what a command may change; `OB` byte by byte. That no command
writes `cfg` and `pending`, two fields the table does not have, is about the model's own choices (log entries 1 and 3). -/
def Obligations.CommandsWriteOnlyWhatTheTableSays : Prop :=
  ∀ (i : Instr) (s t : State), exec i s = .next t →
    (opcodeOf i ∉ [0x1#4, 0x2#4] → t.crc = s.crc) ∧
    (opcodeOf i ∉ [0x3#4, 0x4#4] → t.t = s.t) ∧
    (opcodeOf i ∉ [0x5#4, 0x6#4, 0xA#4, 0xB#4, 0xC#4] → t.w = s.w) ∧
    (opcodeOf i ∉ [0x8#4, 0x9#4, 0xB#4] → t.cs = s.cs) ∧
    (opcodeOf i ∉ [0x2#4, 0x3#4, 0x4#4, 0x5#4, 0x6#4, 0x8#4, 0xA#4, 0xB#4] → t.cur = s.cur) ∧
    (opcodeOf i ∉ [0x7#4, 0xD#4] → t.ob = s.ob ∧ ∀ j, outByte j t = outByte j s) ∧
    (t.err ≠ 0#3 → t.ob = s.ob ∧ t.cs = s.cs ∧ t.crc = s.crc) ∧
    t.ib = s.ib ∧ t.cfg = s.cfg ∧ t.pending = s.pending

/-- Rules R21, R37, R41, R257: a command that the table does not let read a piece of state does the same to all the rest
whatever that piece holds. The last clause, that no command depends on `pending`, is no cell of the table: that field holds
the host's actions and is the model's own choice (log entry 1). -/
def Obligations.CommandsReadOnlyWhatTheTableSays : Prop :=
  ∀ (i : Instr) (s : State),
    (∀ v x, opcodeOf i ≠ 0x2#4 →
      mapNext (setCrc x) (exec i { s with crc := v }) = mapNext (setCrc x) (exec i s)) ∧
    (∀ v x, opcodeOf i ≠ 0x5#4 →
      mapNext (setT x) (exec i { s with t := v }) = mapNext (setT x) (exec i s)) ∧
    (∀ v x, opcodeOf i ∉ [0x7#4, 0x9#4] →
      mapNext (setW x) (exec i { s with w := v }) = mapNext (setW x) (exec i s)) ∧
    (∀ v x, opcodeOf i ∉ [0x9#4, 0xA#4, 0xB#4, 0xC#4, 0xD#4] →
      mapNext (setCs x) (exec i { s with cs := v }) = mapNext (setCs x) (exec i s)) ∧
    (∀ b c y z, opcodeOf i ∉ [0x2#4, 0x3#4, 0x4#4, 0x5#4, 0x6#4, 0x8#4, 0xA#4, 0xB#4] →
      mapNext (setInput y z) (exec i { s with ib := b, cur := c }) = mapNext (setInput y z) (exec i s)) ∧
    (∀ v x, mapNext (memWrite x) (exec i { s with ob := v }) = mapNext (memWrite x) (exec i s)) ∧
    (∀ v x, mapNext (setPending x) (exec i { s with pending := v }) = mapNext (setPending x) (exec i s))
end

