-- ==== Sys2Proof/Laws/State.lean ====
section
/-! SUPPORT. One lemma per field per update of State, so that no later proof unfolds a record update. -/

namespace Sys2Proof.Machine

variable (s : State)

@[simp] theorem setCrc_cfg (v : Word) : (setCrc v s).cfg = s.cfg := rfl
@[simp] theorem setCrc_crc (v : Word) : (setCrc v s).crc = v := rfl
@[simp] theorem setCrc_t (v : Word) : (setCrc v s).t = s.t := rfl
@[simp] theorem setCrc_w (v : Word) : (setCrc v s).w = s.w := rfl
@[simp] theorem setCrc_cs (v : Word) : (setCrc v s).cs = s.cs := rfl
@[simp] theorem setCrc_ib (v : Word) : (setCrc v s).ib = s.ib := rfl
@[simp] theorem setCrc_cur (v : Word) : (setCrc v s).cur = s.cur := rfl
@[simp] theorem setCrc_ob (v : Word) : (setCrc v s).ob = s.ob := rfl
@[simp] theorem setCrc_err (v : Word) : (setCrc v s).err = s.err := rfl
@[simp] theorem setCrc_rsn (v : Word) : (setCrc v s).rsn = s.rsn := rfl
@[simp] theorem setCrc_found (v : Word) : (setCrc v s).found = s.found := rfl
@[simp] theorem setCrc_pending (v : Word) : (setCrc v s).pending = s.pending := rfl

@[simp] theorem setT_cfg (v : Option TypeCode) : (setT v s).cfg = s.cfg := rfl
@[simp] theorem setT_crc (v : Option TypeCode) : (setT v s).crc = s.crc := rfl
@[simp] theorem setT_t (v : Option TypeCode) : (setT v s).t = v := rfl
@[simp] theorem setT_w (v : Option TypeCode) : (setT v s).w = s.w := rfl
@[simp] theorem setT_cs (v : Option TypeCode) : (setT v s).cs = s.cs := rfl
@[simp] theorem setT_ib (v : Option TypeCode) : (setT v s).ib = s.ib := rfl
@[simp] theorem setT_cur (v : Option TypeCode) : (setT v s).cur = s.cur := rfl
@[simp] theorem setT_ob (v : Option TypeCode) : (setT v s).ob = s.ob := rfl
@[simp] theorem setT_err (v : Option TypeCode) : (setT v s).err = s.err := rfl
@[simp] theorem setT_rsn (v : Option TypeCode) : (setT v s).rsn = s.rsn := rfl
@[simp] theorem setT_found (v : Option TypeCode) : (setT v s).found = s.found := rfl
@[simp] theorem setT_pending (v : Option TypeCode) : (setT v s).pending = s.pending := rfl

@[simp] theorem setW_cfg (v : Option Chunk) : (setW v s).cfg = s.cfg := rfl
@[simp] theorem setW_crc (v : Option Chunk) : (setW v s).crc = s.crc := rfl
@[simp] theorem setW_t (v : Option Chunk) : (setW v s).t = s.t := rfl
@[simp] theorem setW_w (v : Option Chunk) : (setW v s).w = v := rfl
@[simp] theorem setW_cs (v : Option Chunk) : (setW v s).cs = s.cs := rfl
@[simp] theorem setW_ib (v : Option Chunk) : (setW v s).ib = s.ib := rfl
@[simp] theorem setW_cur (v : Option Chunk) : (setW v s).cur = s.cur := rfl
@[simp] theorem setW_ob (v : Option Chunk) : (setW v s).ob = s.ob := rfl
@[simp] theorem setW_err (v : Option Chunk) : (setW v s).err = s.err := rfl
@[simp] theorem setW_rsn (v : Option Chunk) : (setW v s).rsn = s.rsn := rfl
@[simp] theorem setW_found (v : Option Chunk) : (setW v s).found = s.found := rfl
@[simp] theorem setW_pending (v : Option Chunk) : (setW v s).pending = s.pending := rfl

@[simp] theorem setCs_cfg (v : List Chunk) : (setCs v s).cfg = s.cfg := rfl
@[simp] theorem setCs_crc (v : List Chunk) : (setCs v s).crc = s.crc := rfl
@[simp] theorem setCs_t (v : List Chunk) : (setCs v s).t = s.t := rfl
@[simp] theorem setCs_w (v : List Chunk) : (setCs v s).w = s.w := rfl
@[simp] theorem setCs_cs (v : List Chunk) : (setCs v s).cs = v := rfl
@[simp] theorem setCs_ib (v : List Chunk) : (setCs v s).ib = s.ib := rfl
@[simp] theorem setCs_cur (v : List Chunk) : (setCs v s).cur = s.cur := rfl
@[simp] theorem setCs_ob (v : List Chunk) : (setCs v s).ob = s.ob := rfl
@[simp] theorem setCs_err (v : List Chunk) : (setCs v s).err = s.err := rfl
@[simp] theorem setCs_rsn (v : List Chunk) : (setCs v s).rsn = s.rsn := rfl
@[simp] theorem setCs_found (v : List Chunk) : (setCs v s).found = s.found := rfl
@[simp] theorem setCs_pending (v : List Chunk) : (setCs v s).pending = s.pending := rfl

@[simp] theorem setCur_cfg (v : Nat) : (setCur v s).cfg = s.cfg := rfl
@[simp] theorem setCur_crc (v : Nat) : (setCur v s).crc = s.crc := rfl
@[simp] theorem setCur_t (v : Nat) : (setCur v s).t = s.t := rfl
@[simp] theorem setCur_w (v : Nat) : (setCur v s).w = s.w := rfl
@[simp] theorem setCur_cs (v : Nat) : (setCur v s).cs = s.cs := rfl
@[simp] theorem setCur_ib (v : Nat) : (setCur v s).ib = s.ib := rfl
@[simp] theorem setCur_cur (v : Nat) : (setCur v s).cur = v := rfl
@[simp] theorem setCur_ob (v : Nat) : (setCur v s).ob = s.ob := rfl
@[simp] theorem setCur_err (v : Nat) : (setCur v s).err = s.err := rfl
@[simp] theorem setCur_rsn (v : Nat) : (setCur v s).rsn = s.rsn := rfl
@[simp] theorem setCur_found (v : Nat) : (setCur v s).found = s.found := rfl
@[simp] theorem setCur_pending (v : Nat) : (setCur v s).pending = s.pending := rfl

@[simp] theorem setInput_cfg (b : List Byte) (c : Nat) : (setInput b c s).cfg = s.cfg := rfl
@[simp] theorem setInput_crc (b : List Byte) (c : Nat) : (setInput b c s).crc = s.crc := rfl
@[simp] theorem setInput_t (b : List Byte) (c : Nat) : (setInput b c s).t = s.t := rfl
@[simp] theorem setInput_w (b : List Byte) (c : Nat) : (setInput b c s).w = s.w := rfl
@[simp] theorem setInput_cs (b : List Byte) (c : Nat) : (setInput b c s).cs = s.cs := rfl
@[simp] theorem setInput_ib (b : List Byte) (c : Nat) : (setInput b c s).ib = b := rfl
@[simp] theorem setInput_cur (b : List Byte) (c : Nat) : (setInput b c s).cur = c := rfl
@[simp] theorem setInput_ob (b : List Byte) (c : Nat) : (setInput b c s).ob = s.ob := rfl
@[simp] theorem setInput_err (b : List Byte) (c : Nat) : (setInput b c s).err = s.err := rfl
@[simp] theorem setInput_rsn (b : List Byte) (c : Nat) : (setInput b c s).rsn = s.rsn := rfl
@[simp] theorem setInput_found (b : List Byte) (c : Nat) : (setInput b c s).found = s.found := rfl
@[simp] theorem setInput_pending (b : List Byte) (c : Nat) : (setInput b c s).pending = s.pending := rfl

@[simp] theorem memWrite_cfg (v : List Byte) : (memWrite v s).cfg = s.cfg := rfl
@[simp] theorem memWrite_crc (v : List Byte) : (memWrite v s).crc = s.crc := rfl
@[simp] theorem memWrite_t (v : List Byte) : (memWrite v s).t = s.t := rfl
@[simp] theorem memWrite_w (v : List Byte) : (memWrite v s).w = s.w := rfl
@[simp] theorem memWrite_cs (v : List Byte) : (memWrite v s).cs = s.cs := rfl
@[simp] theorem memWrite_ib (v : List Byte) : (memWrite v s).ib = s.ib := rfl
@[simp] theorem memWrite_cur (v : List Byte) : (memWrite v s).cur = s.cur := rfl
@[simp] theorem memWrite_ob (v : List Byte) : (memWrite v s).ob = v := rfl
@[simp] theorem memWrite_err (v : List Byte) : (memWrite v s).err = s.err := rfl
@[simp] theorem memWrite_rsn (v : List Byte) : (memWrite v s).rsn = s.rsn := rfl
@[simp] theorem memWrite_found (v : List Byte) : (memWrite v s).found = s.found := rfl
@[simp] theorem memWrite_pending (v : List Byte) : (memWrite v s).pending = s.pending := rfl

@[simp] theorem setResponse_cfg (e : BitVec 3) (r : BitVec 2) (f : Bool) : (setResponse e r f s).cfg = s.cfg := rfl
@[simp] theorem setResponse_crc (e : BitVec 3) (r : BitVec 2) (f : Bool) : (setResponse e r f s).crc = s.crc := rfl
@[simp] theorem setResponse_t (e : BitVec 3) (r : BitVec 2) (f : Bool) : (setResponse e r f s).t = s.t := rfl
@[simp] theorem setResponse_w (e : BitVec 3) (r : BitVec 2) (f : Bool) : (setResponse e r f s).w = s.w := rfl
@[simp] theorem setResponse_cs (e : BitVec 3) (r : BitVec 2) (f : Bool) : (setResponse e r f s).cs = s.cs := rfl
@[simp] theorem setResponse_ib (e : BitVec 3) (r : BitVec 2) (f : Bool) : (setResponse e r f s).ib = s.ib := rfl
@[simp] theorem setResponse_cur (e : BitVec 3) (r : BitVec 2) (f : Bool) : (setResponse e r f s).cur = s.cur := rfl
@[simp] theorem setResponse_ob (e : BitVec 3) (r : BitVec 2) (f : Bool) : (setResponse e r f s).ob = s.ob := rfl
@[simp] theorem setResponse_err (e : BitVec 3) (r : BitVec 2) (f : Bool) : (setResponse e r f s).err = e := rfl
@[simp] theorem setResponse_rsn (e : BitVec 3) (r : BitVec 2) (f : Bool) : (setResponse e r f s).rsn = r := rfl
@[simp] theorem setResponse_found (e : BitVec 3) (r : BitVec 2) (f : Bool) : (setResponse e r f s).found = f := rfl
@[simp] theorem setResponse_pending (e : BitVec 3) (r : BitVec 2) (f : Bool) : (setResponse e r f s).pending = s.pending := rfl

@[simp] theorem setPending_cfg (l : List HostAction) : (setPending l s).cfg = s.cfg := rfl
@[simp] theorem setPending_crc (l : List HostAction) : (setPending l s).crc = s.crc := rfl
@[simp] theorem setPending_t (l : List HostAction) : (setPending l s).t = s.t := rfl
@[simp] theorem setPending_w (l : List HostAction) : (setPending l s).w = s.w := rfl
@[simp] theorem setPending_cs (l : List HostAction) : (setPending l s).cs = s.cs := rfl
@[simp] theorem setPending_ib (l : List HostAction) : (setPending l s).ib = s.ib := rfl
@[simp] theorem setPending_cur (l : List HostAction) : (setPending l s).cur = s.cur := rfl
@[simp] theorem setPending_ob (l : List HostAction) : (setPending l s).ob = s.ob := rfl
@[simp] theorem setPending_err (l : List HostAction) : (setPending l s).err = s.err := rfl
@[simp] theorem setPending_rsn (l : List HostAction) : (setPending l s).rsn = s.rsn := rfl
@[simp] theorem setPending_found (l : List HostAction) : (setPending l s).found = s.found := rfl
@[simp] theorem setPending_pending (l : List HostAction) : (setPending l s).pending = l := rfl

@[simp] theorem consumeSpan_cfg : (consumeSpan s).cfg = s.cfg := rfl
@[simp] theorem consumeSpan_crc : (consumeSpan s).crc = s.crc := rfl
@[simp] theorem consumeSpan_t : (consumeSpan s).t = s.t := rfl
@[simp] theorem consumeSpan_w : (consumeSpan s).w = s.w := rfl
@[simp] theorem consumeSpan_cs : (consumeSpan s).cs = s.cs := rfl
@[simp] theorem consumeSpan_ib : (consumeSpan s).ib = s.ib := rfl
@[simp] theorem consumeSpan_cur : (consumeSpan s).cur = s.ib.length := rfl
@[simp] theorem consumeSpan_ob : (consumeSpan s).ob = s.ob := rfl
@[simp] theorem consumeSpan_err : (consumeSpan s).err = s.err := rfl
@[simp] theorem consumeSpan_rsn : (consumeSpan s).rsn = s.rsn := rfl
@[simp] theorem consumeSpan_found : (consumeSpan s).found = s.found := rfl
@[simp] theorem consumeSpan_pending : (consumeSpan s).pending = s.pending := rfl

@[simp] theorem span_setCrc (v : Word) : span (setCrc v s) = span s := rfl
@[simp] theorem span_setT (v : Option TypeCode) : span (setT v s) = span s := rfl
@[simp] theorem span_setW (v : Option Chunk) : span (setW v s) = span s := rfl
@[simp] theorem span_setCs (v : List Chunk) : span (setCs v s) = span s := rfl
@[simp] theorem span_memWrite (v : List Byte) : span (memWrite v s) = span s := rfl
@[simp] theorem span_setResponse (e : BitVec 3) (r : BitVec 2) (f : Bool) : span (setResponse e r f s) = span s := rfl
@[simp] theorem span_setPending (l : List HostAction) : span (setPending l s) = span s := rfl
/-- After a load the span is the whole buffer (spec/20_memory.md rule R53). -/
@[simp] theorem span_setInput_zero (b : List Byte) : span (setInput b 0 s) = b := by simp [span]
/-- A consumed span is empty (spec/70_reset_and_hazards.md rule R260). -/
@[simp] theorem span_consumeSpan : span (consumeSpan s) = [] := by simp [span]

end Sys2Proof.Machine
end

