-- ==== Sys2Proof/Laws/Operands.lean ====
section
/-! SUPPORT. What the operand forms compute: lengths, the big-endian round trips, and which byte strings are type codes. -/

namespace Sys2Proof.Machine

@[simp] theorem be32_length (v : Word) : (be32 v).length = 4 := rfl

@[simp] theorem typeBytes_length (t : TypeCode) : (typeBytes t).length = 4 := rfl

theorem typeBytes_injective {t u : TypeCode} (h : typeBytes t = typeBytes u) : t = u := by
  cases t; cases u; simpa [typeBytes] using h

theorem slice_length (s : List Byte) (a b : Nat) : (slice s a b).length = min (b - a) (s.length - a) := by
  simp [slice]

/-- A slice that begins where the first string ends lies in the second. -/
theorem slice_append_right (s t : List Byte) (a b : Nat) (h : s.length ≤ a) :
    slice (s ++ t) a b = slice t (a - s.length) (b - s.length) := by
  simp only [slice, List.drop_append, List.drop_eq_nil_of_le h, List.nil_append]
  congr 1; omega

/-- A slice that takes exactly the first string. -/
theorem slice_append_left (s t : List Byte) : slice (s ++ t) 0 s.length = s := by simp [slice]

/-- What `typeOfBytes` accepts: exactly the four bytes of a valid type code (rule R141). -/
theorem typeOfBytes_eq_some {b : List Byte} {t : TypeCode} :
    typeOfBytes b = some t ↔ b = typeBytes t ∧ typeValid t = true := by
  constructor
  · intro h
    match b, h with
    | [a, b, c, d], h =>
      simp only [typeOfBytes] at h
      split at h
      · next hv => cases h; exact ⟨rfl, hv⟩
      · cases h
  · rintro ⟨rfl, h⟩
    cases t
    simp [typeBytes, typeOfBytes, h]

theorem typeOfBytes_typeBytes {t : TypeCode} (h : typeValid t = true) : typeOfBytes (typeBytes t) = some t :=
  typeOfBytes_eq_some.2 ⟨rfl, h⟩

/-- The only case in which a slice of a type field has no reading is a byte that is not a letter. -/
theorem typeOfBytes_eq_none_of_length {b : List Byte} (h : b.length ≠ 4) : typeOfBytes b = none := by
  cases ht : typeOfBytes b with
  | none => rfl
  | some t => exact absurd (by rw [(typeOfBytes_eq_some.1 ht).1]; rfl) h

/-- `MemRead` inside the buffer answers the bytes; outside it faults (rule R55). -/
theorem memRead_eq (a n : Nat) (s : State) :
    memRead a n s = if a + n ≤ s.ib.length then .ok (slice s.ib a (a + n)) else .error .readOutsideIB := rfl

/-- A read of bytes that the span holds is inside the buffer and gives the span's first bytes. -/
theorem memRead_span {n : Nat} {s : State} (h0 : 0 < n) (h : n ≤ (span s).length) :
    memRead s.cur n s = .ok ((span s).take n) := by
  have hl : n ≤ s.ib.length - s.cur := by simpa [span] using h
  rw [memRead_eq, if_pos (by omega)]
  simp [slice, span]

@[simp] theorem exceeds_finite (n m : Nat) : exceeds n (.finite m) = decide (m < n) := rfl

@[simp] theorem exceeds_unbounded (n : Nat) : exceeds n .unbounded = false := rfl

/-- Less than something that fits, fits. -/
theorem exceeds_mono {n m : Nat} {c : Cap} (h : n ≤ m) (hm : exceeds m c = false) : exceeds n c = false := by
  cases c with
  | finite k => simp at hm ⊢; omega
  | unbounded => rfl

@[simp] theorem totalData_nil : totalData [] = 0 := rfl

@[simp] theorem totalData_cons (c : Chunk) (l : List Chunk) : totalData (c :: l) = c.data.length + totalData l := by
  simp [totalData]

@[simp] theorem totalData_append (l m : List Chunk) : totalData (l ++ m) = totalData l + totalData m := by
  simp [totalData]

end Sys2Proof.Machine
end

