-- ==== Sys2Proof/Laws/Ops.lean ====
section
/-! SUPPORT. Everything the shared operations can do: how a command ends, and each meaning as its possible next states. -/

namespace Sys2Proof.Machine

theorem ok_eq_next {f : Bool} {s t : State} : ok f s = .next t ↔ t = setResponse 0#3 0#2 f s := by
  simp [ok, eq_comm]

theorem refuse_eq_next {r : RefuseReason} {s t : State} :
    refuse r s = .next t ↔ t = setResponse errRefused (rsnCode r) false s := by
  simp [refuse, eq_comm]

theorem raiseError_eq_next {k : ErrorKind} {r : ResultReg} {s t : State} :
    raiseError k r s = .next t ↔ t = setResponse (errCode k) 0#2 false (invalidate r s) := by
  simp [raiseError, eq_comm]

/-- A load goes through exactly when it fits `CAP_BUF` (rule R211). -/
theorem hostLoad_eq_next {b : List Byte} {s t : State} :
    hostLoad b s = .next t ↔ exceeds b.length s.cfg.capBuf = false ∧ t = setInput b 0 s := by
  unfold hostLoad
  split
  · next h => simp [h]
  · next h => simp [h, eq_comm]

/-- An error kind's code is neither 0 nor 7 (rule R222). -/
theorem errCode_range (k : ErrorKind) : errCode k ≠ 0#3 ∧ errCode k ≠ errRefused := by cases k <;> decide

theorem rsnCode_ne_zero (r : RefuseReason) : rsnCode r ≠ 0#2 := by cases r <;> decide

/-- `TC.PARSE` as its three cases, with the read done (rule R148). -/
theorem execTcParse_eq (s : State) :
    execTcParse s =
      if (span s).length < 4 then refuse .precondition s
      else
        match typeOfBytes ((span s).take 4) with
        | some t => ok false (setCur (s.cur + 4) (setT (some t) s))
        | none => raiseError .invalidTypeCode .typeReg s := by
  unfold execTcParse
  split
  · rfl
  · next h =>
    have e := memRead_span (s := s) (n := 4) (by decide) (by omega)
    cases ht : typeOfBytes ((span s).take 4) <;> simp [e, ht]

/-- What `CT.FIND` and `CT.REMOVE` look up: the first match, at an index of the list (rule R188). -/
theorem findFirst_getElem {l : List Chunk} {b : List Byte} {i : Nat} {c : Chunk} (h : findFirst l b = some (i, c)) :
    l[i]? = some c ∧ typeBytes c.type = b := by
  induction l generalizing i with
  | nil => cases h
  | cons d l ih =>
    simp only [findFirst] at h
    split at h
    · next hd => cases h; exact ⟨rfl, hd⟩
    · split at h
      · cases h
      · next hr => cases h; exact ⟨by simpa using (ih hr).1, (ih hr).2⟩

theorem findFirst_mem {l : List Chunk} {b : List Byte} {i : Nat} {c : Chunk} (h : findFirst l b = some (i, c)) :
    c ∈ l := List.mem_of_getElem? (findFirst_getElem h).1

end Sys2Proof.Machine
end

