-- ==== Sys2Proof/Laws/Chunk.lean ====
section
/-! SUPPORT. What a successful chunk parse says, once (spec/42_chunk.md rule R164); later proofs cite it. -/

namespace Sys2Proof.Machine

@[simp] theorem mkChunk_type (t : TypeCode) (d : List Byte) : (mkChunk t d).type = t := rfl
@[simp] theorem mkChunk_data (t : TypeCode) (d : List Byte) : (mkChunk t d).data = d := rfl
@[simp] theorem mkChunk_crc (t : TypeCode) (d : List Byte) : (mkChunk t d).crc = crc32 (typeBytes t ++ d) := rfl

/-- Rule R162: a frame has 12 bytes more than its data. -/
theorem frame_length (c : Chunk) : (frame c).length = 12 + c.data.length := by
  simp [frame]; omega

/-- Everything a successful `parse_chunk` says of its input and its result (rule R164 steps 1 to 6). -/
theorem parseChunk_ok {s : List Byte} {c : Chunk} {n : Nat} (h : parseChunk s = .ok (c, n)) :
    12 ≤ n ∧ n ≤ s.length ∧ n = 12 + (be32dec (slice s 0 4)).toNat ∧
    slice s 4 8 = typeBytes c.type ∧ typeValid c.type = true ∧
    c.data = slice s 8 (n - 4) ∧ c.crc = be32dec (slice s (n - 4) n) ∧
    c.crc = crc32 (typeBytes c.type ++ c.data) := by
  unfold parseChunk at h
  split at h
  · cases h
  · next h12 =>
    simp only at h
    split at h
    · cases h
    · next t ht =>
      obtain ⟨hb, hv⟩ := typeOfBytes_eq_some.1 ht
      split at h
      · cases h
      · next hl =>
        split at h
        · next hc =>
          cases h
          refine ⟨by omega, by omega, rfl, hb, hv, ?_, ?_, hc.symm⟩
          · simp only; congr 1; omega
          · simp only; congr 2; omega
        · cases h

/-- A parsed chunk has as many data bytes as its length field says. -/
theorem parseChunk_data_length {s : List Byte} {c : Chunk} {n : Nat} (h : parseChunk s = .ok (c, n)) :
    n = 12 + c.data.length := by
  obtain ⟨h12, hn, -, -, -, hd, -, -⟩ := parseChunk_ok h
  rw [hd, slice_length]; omega

/-- No parse gives more data than the length field can say (rule R87). -/
theorem parseChunk_data_le {s : List Byte} {c : Chunk} {n : Nat} (h : parseChunk s = .ok (c, n)) :
    c.data.length ≤ 2 ^ 32 - 1 := by
  have h1 := parseChunk_data_length h
  obtain ⟨-, -, hn, -⟩ := parseChunk_ok h
  have := (be32dec (slice s 0 4)).isLt
  omega

end Sys2Proof.Machine
end

