-- ==== Sys2Proof/Laws/Container.lean ====
section
/-! SUPPORT. The parse loop of spec/43_container.md rule R181 without its fuel: any fuel of at least the number of bytes
gives the same answer, because every frame takes at least 12 bytes (rule R184). -/

namespace Sys2Proof.Machine

theorem parseFramesFuel_agree (n : Nat) :
    ∀ (s : List Byte), s.length ≤ n → ∀ f g, s.length ≤ f → s.length ≤ g → parseFramesFuel f s = parseFramesFuel g s := by
  induction n with
  | zero =>
    intro s hs f g _ _
    obtain rfl := List.length_eq_zero_iff.1 (Nat.le_zero.1 hs)
    cases f <;> cases g <;> rfl
  | succ n ih =>
    intro s hs f g hf hg
    match s, f, g, hf, hg with
    | [], f, g, _, _ => cases f <;> cases g <;> rfl
    | b :: bs, f + 1, g + 1, hf, hg =>
      simp only [parseFramesFuel]
      cases hp : parseChunk (b :: bs) with
      | error k => rfl
      | ok r =>
        obtain ⟨c, m⟩ := r
        obtain ⟨h12, -, -⟩ := parseChunk_ok hp
        have hl : ((b :: bs).drop m).length = (b :: bs).length - m := List.length_drop
        simp only [List.length_cons] at *
        rw [ih ((b :: bs).drop m) (by omega) f g (by omega) (by omega)]

/-- Fuel beyond the number of bytes changes nothing. -/
theorem parseFramesFuel_eq {s : List Byte} {f : Nat} (h : s.length ≤ f) : parseFramesFuel f s = parseFrames s :=
  parseFramesFuel_agree s.length s (Nat.le_refl _) f s.length h (Nat.le_refl _)

/-- A container that parses begins with the signature, and the rest of it is frames. -/
theorem parseContainer_ok {s : List Byte} {l : List Chunk} (h : parseContainer s = .ok l) :
    8 ≤ s.length ∧ s.take 8 = sig ∧ parseFrames (s.drop 8) = .ok l := by
  unfold parseContainer at h
  split at h
  · cases h
  · next hn =>
    push Not at hn
    exact ⟨hn.1, by simpa [slice] using hn.2, h⟩

theorem serFrames_cons (c : Chunk) (l : List Chunk) : serFrames (c :: l) = frame c ++ serFrames l := by simp [serFrames]

end Sys2Proof.Machine
end

