-- ==== Sys2Proof/Laws/Decode.lean ====
section
/-! SUPPORT. The bits and fields of a command word built from `op` and `arg` (spec/30_encoding.md rule R100). -/

namespace Sys2Proof

/-- A bit of a command word: `arg` below bit 32, `op` from bit 32 up. -/
theorem getLsbD_word (op : BitVec 4) (a : Word) (i : Nat) :
    (op ++ a : CmdWord).getLsbD i = if i < 32 then a.getLsbD i else op.getLsbD (i - 32) := by
  exact BitVec.getLsbD_append

/-- The `arg` field of a word built from `op` and `arg`. -/
theorem argField_word (op : BitVec 4) (a : Word) : argField (op ++ a : CmdWord) = a := by
  apply BitVec.eq_of_getLsbD_eq
  intro i hi
  rw [argField, BitVec.getLsbD_extractLsb', Nat.zero_add, getLsbD_word]
  simp [hi]

/-- The `op` field of a word built from `op` and `arg`. -/
theorem opField_word (op : BitVec 4) (a : Word) : opField (op ++ a : CmdWord) = op := by
  apply BitVec.eq_of_getLsbD_eq
  intro i hi
  rw [opField, BitVec.getLsbD_extractLsb', getLsbD_word]
  simp [hi]

/-- Two command words with the same bits are equal; the bits of a word are its `op` and `arg` fields. -/
theorem word_of_fields (w : CmdWord) : (opField w ++ argField w : CmdWord) = w := by
  apply BitVec.eq_of_getLsbD_eq
  intro i hi
  rw [getLsbD_word, opField, argField, BitVec.getLsbD_extractLsb', BitVec.getLsbD_extractLsb']
  split
  · next h => simp [h]
  · next h => rw [show 32 + (i - 32) = i by omega]; simp; omega

/-- A number below `2^36` is decoded as the command word it is. -/
theorem decodeNumber_of_lt {n : Nat} (h : n < 2 ^ 36) : decodeNumber n = .ok (decode (BitVec.ofNat 36 n)) := if_pos h

end Sys2Proof
end

