-- ==== Sys2Proof/Laws/Exec.lean ====
section
/-! SUPPORT. Each meaning by the case of the piece of state it looks at first, so that later proofs cite the case and do not
unfold the meaning: how the register, the parse or the lookup stands, and what the command then does. -/

namespace Sys2Proof.Machine

variable {s : State}

theorem execTcParses_some {t : TypeCode} (h : typeOfBytes (span s) = some t) :
    execTcParses s = ok false (consumeSpan (setT (some t) s)) := by rw [execTcParses, h]

theorem execTcParses_none (h : typeOfBytes (span s) = none) :
    execTcParses s = raiseError .invalidTypeCode .typeReg s := by rw [execTcParses, h]

theorem execChNew_none (h : s.t = none) : execChNew s = refuse .precondition s := by rw [execChNew, h]

theorem execChNew_some {t : TypeCode} (h : s.t = some t) :
    execChNew s =
      if 2 ^ 32 - 1 < (span s).length then refuse .precondition s
      else if s.cfg.capData < (span s).length then refuse .capacity s
      else ok false (consumeSpan (setW (some (mkChunk t (span s))) s)) := by rw [execChNew, h]

theorem execChParse_error {k : ErrorKind} (h : parseChunk (span s) = .error k) :
    execChParse s = raiseError k .workReg s := by rw [execChParse, h]

theorem execChParse_ok {c : Chunk} {n : Nat} (h : parseChunk (span s) = .ok (c, n)) :
    execChParse s =
      if s.cfg.capData < c.data.length then refuse .capacity s
      else ok false (setCur (s.cur + n) (setW (some c) s)) := by rw [execChParse, h]

theorem execChSer_none (h : s.w = none) : execChSer s = refuse .precondition s := by rw [execChSer, h]

theorem execChSer_some {c : Chunk} (h : s.w = some c) :
    execChSer s =
      if exceeds (12 + c.data.length) s.cfg.capBuf then refuse .capacity s else ok false (memWrite (frame c) s) := by
  rw [execChSer, h]

theorem execCtParse_error {k : ErrorKind} (h : parseContainer (span s) = .error k) :
    execCtParse s = raiseError k .store s := by rw [execCtParse, h]

theorem execCtParse_ok {l : List Chunk} (h : parseContainer (span s) = .ok l) :
    execCtParse s =
      if storeOverflow s.cfg l then refuse .capacity s else ok false (consumeSpan (setCs l s)) := by
  rw [execCtParse, h]

theorem execCtAppend_none (h : s.w = none) : execCtAppend s = refuse .precondition s := by rw [execCtAppend, h]

theorem execCtAppend_some {c : Chunk} (h : s.w = some c) :
    execCtAppend s =
      if exceeds (s.cs.length + 1) s.cfg.capChunks || exceeds (totalData s.cs + c.data.length) s.cfg.capStore then
        refuse .capacity s
      else ok false (setCs (s.cs ++ [c]) s) := by rw [execCtAppend, h]

theorem execCtFind_some {i : Nat} {c : Chunk} (h : findFirst s.cs (span s) = some (i, c)) :
    execCtFind s = ok true (consumeSpan (setW (some c) s)) := by rw [execCtFind, h]

theorem execCtFind_none (h : findFirst s.cs (span s) = none) :
    execCtFind s = ok false (consumeSpan (setW none s)) := by rw [execCtFind, h]

theorem execCtRemove_some {i : Nat} {c : Chunk} (h : findFirst s.cs (span s) = some (i, c)) :
    execCtRemove s = ok true (consumeSpan (setCs (s.cs.eraseIdx i) (setW (some c) s))) := by rw [execCtRemove, h]

theorem execCtRemove_none (h : findFirst s.cs (span s) = none) :
    execCtRemove s = raiseError .notFound .workReg s := by rw [execCtRemove, h]

theorem execCtGet_some {a : Word} {c : Chunk} (h : s.cs[a.toNat]? = some c) :
    execCtGet a s = ok false (setW (some c) s) := by rw [execCtGet, h]

theorem execCtGet_none {a : Word} (h : s.cs[a.toNat]? = none) :
    execCtGet a s = refuse .precondition s := by rw [execCtGet, h]

end Sys2Proof.Machine
end

