-- ==== Sys2Proof/Laws/Memory.lean ====
section
/-! SUPPORT. Every operation on the buffers keeps their canonical form (spec/10_state.md rule R43 item 4): the byte lists
are of exactly their lengths, within `CAP_BUF`, and the cursor is inside `IB`. -/

namespace Sys2Proof.Machine

/-- The three bounds behind `Memory.wf`. -/
theorem Memory.wf_iff (s : State) :
    Memory.wf s = true ↔
      exceeds s.ib.length s.cfg.capBuf = false ∧ exceeds s.ob.length s.cfg.capBuf = false ∧ s.cur ≤ s.ib.length := by
  simp [Memory.wf, and_assoc]

theorem Memory.wf_reset : Memory.wf State.reset = true := by decide

theorem Memory.wf_setCur {s : State} {v : Nat} (h : Memory.wf s = true) (hv : v ≤ s.ib.length) :
    Memory.wf (setCur v s) = true := by
  rw [Memory.wf_iff] at h ⊢
  exact ⟨h.1, h.2.1, hv⟩

theorem Memory.wf_consumeSpan {s : State} (h : Memory.wf s = true) : Memory.wf (consumeSpan s) = true :=
  Memory.wf_setCur h (Nat.le_refl _)

theorem Memory.wf_setInput {s : State} {b : List Byte} (h : Memory.wf s = true)
    (hb : exceeds b.length s.cfg.capBuf = false) : Memory.wf (setInput b 0 s) = true := by
  rw [Memory.wf_iff] at h ⊢
  exact ⟨hb, h.2.1, Nat.zero_le _⟩

theorem Memory.wf_memWrite {s : State} {v : List Byte} (h : Memory.wf s = true)
    (hv : exceeds v.length s.cfg.capBuf = false) : Memory.wf (memWrite v s) = true := by
  rw [Memory.wf_iff] at h ⊢
  exact ⟨h.1, hv, h.2.2⟩

end Sys2Proof.Machine
end

