-- ==== Sys2Proof/Laws/PerInstr.lean ====
section
/-! SUPPORT. Families of statements about every command as syntax, one lemma per constructor. `TableRow`: the encoding of a
command lies in the row of spec/opcode_table.json that carries its mnemonic (spec/30_encoding.md rule R101). -/

namespace Sys2Proof.Laws.TableRow

/-- Some row of the table has the command's mnemonic and matches its word. -/
def Statement (i : Instr) : Prop := ∃ row ∈ opcodeRows, row.1 = i.mnemonic ∧ rowMatches (encode i) row = true

/-- The common mask keeps `op` and drops `arg`. -/
theorem mask_word (op : BitVec 4) (a : Word) : (op ++ a : CmdWord) &&& 0xF00000000#36 = op ++ 0#32 := by
  have h : (0xF00000000#36 : CmdWord) = (0xF#4 ++ 0#32 : CmdWord) := by decide
  rw [h, BitVec.and_append]
  congr 1
  · ext i hi; simp at *; revert hi; decide +revert
  · simp

theorem of_row {i : Instr} (m : CmdWord) (hr : (i.mnemonic, m, 0xF00000000#36) ∈ opcodeRows)
    (hm : (opcodeOf i ++ 0#32 : CmdWord) = m) : Statement i :=
  ⟨_, hr, rfl, by simp [rowMatches, encode, mask_word, hm]⟩

theorem nop (a : Word) : Statement (.nop a) := of_row 0x000000000#36 (by simp [opcodeRows, Instr.mnemonic]) (by simp only [opcodeOf]; decide)
theorem crcClr (a : Word) : Statement (.crcClr a) := of_row 0x100000000#36 (by simp [opcodeRows, Instr.mnemonic]) (by simp only [opcodeOf]; decide)
theorem crcUpd (a : Word) : Statement (.crcUpd a) := of_row 0x200000000#36 (by simp [opcodeRows, Instr.mnemonic]) (by simp only [opcodeOf]; decide)
theorem tcParse (a : Word) : Statement (.tcParse a) := of_row 0x300000000#36 (by simp [opcodeRows, Instr.mnemonic]) (by simp only [opcodeOf]; decide)
theorem tcParses (a : Word) : Statement (.tcParses a) := of_row 0x400000000#36 (by simp [opcodeRows, Instr.mnemonic]) (by simp only [opcodeOf]; decide)
theorem chNew (a : Word) : Statement (.chNew a) := of_row 0x500000000#36 (by simp [opcodeRows, Instr.mnemonic]) (by simp only [opcodeOf]; decide)
theorem chParse (a : Word) : Statement (.chParse a) := of_row 0x600000000#36 (by simp [opcodeRows, Instr.mnemonic]) (by simp only [opcodeOf]; decide)
theorem chSer (a : Word) : Statement (.chSer a) := of_row 0x700000000#36 (by simp [opcodeRows, Instr.mnemonic]) (by simp only [opcodeOf]; decide)
theorem ctParse (a : Word) : Statement (.ctParse a) := of_row 0x800000000#36 (by simp [opcodeRows, Instr.mnemonic]) (by simp only [opcodeOf]; decide)
theorem ctAppend (a : Word) : Statement (.ctAppend a) := of_row 0x900000000#36 (by simp [opcodeRows, Instr.mnemonic]) (by simp only [opcodeOf]; decide)
theorem ctFind (a : Word) : Statement (.ctFind a) := of_row 0xA00000000#36 (by simp [opcodeRows, Instr.mnemonic]) (by simp only [opcodeOf]; decide)
theorem ctRemove (a : Word) : Statement (.ctRemove a) := of_row 0xB00000000#36 (by simp [opcodeRows, Instr.mnemonic]) (by simp only [opcodeOf]; decide)
theorem ctGet (a : Word) : Statement (.ctGet a) := of_row 0xC00000000#36 (by simp [opcodeRows, Instr.mnemonic]) (by simp only [opcodeOf]; decide)
theorem ctSer (a : Word) : Statement (.ctSer a) := of_row 0xD00000000#36 (by simp [opcodeRows, Instr.mnemonic]) (by simp only [opcodeOf]; decide)
theorem reservedE (a : Word) : Statement (.reservedE a) := of_row 0xE00000000#36 (by simp [opcodeRows, Instr.mnemonic]) (by simp only [opcodeOf]; decide)
theorem reservedF (a : Word) : Statement (.reservedF a) := of_row 0xF00000000#36 (by simp [opcodeRows, Instr.mnemonic]) (by simp only [opcodeOf]; decide)

end Sys2Proof.Laws.TableRow
end

