-- ==== Sys2Proof/Laws/Ports.lean ====
section
/-! SUPPORT. What the operations of the signal-level ports can do (spec/44_system.md rule R216). -/

namespace Sys2Proof.Machine

@[simp] theorem onWires_unbounded (free v : Nat) : onWires .unbounded free v = v := rfl

/-- A value that fits the wires is what they carry. -/
theorem onWires_of_fits {w : Width} {free v : Nat} (h : fitsWidth v w = true) : onWires w free v = v := by
  cases w with
  | bits n => simpa [onWires, fitsWidth] using fun hn => absurd (by simpa [fitsWidth] using h) (Nat.not_lt.2 hn)
  | unbounded => rfl

/-- Whatever the value, the wires carry a number of their width. -/
theorem onWires_fits (w : Width) (free v : Nat) : fitsWidth (onWires w free v) w = true := by
  cases w with
  | bits n =>
    simp only [onWires, fitsWidth]
    split
    · exact decide_eq_true ‹_›
    · exact decide_eq_true (Nat.mod_lt _ (Nat.two_pow_pos n))
  | unbounded => rfl

@[simp] theorem fitsWidth_unbounded (v : Nat) : fitsWidth v .unbounded = true := rfl

theorem fitsWidth_atLeast {n v : Nat} {w : Width} (h : fitsWidth v w = true) : fitsWidth v (widthAtLeast n w) = true := by
  cases w with
  | bits m =>
    simp only [widthAtLeast, fitsWidth, decide_eq_true_eq] at h ⊢
    exact Nat.lt_of_lt_of_le h (Nat.pow_le_pow_right (by decide) (Nat.le_max_right n m))
  | unbounded => rfl

theorem fitsWidth_atLeast_left {n v : Nat} (w : Width) (h : v < 2 ^ n) : fitsWidth v (widthAtLeast n w) = true := by
  cases w with
  | bits m =>
    simp only [widthAtLeast, fitsWidth, decide_eq_true_eq]
    exact Nat.lt_of_lt_of_le h (Nat.pow_le_pow_right (by decide) (Nat.le_max_left n m))
  | unbounded => rfl

/-- One byte goes in exactly when there is room for it (rules R211, R216; log entry 24). -/
theorem ibWrite_eq_next {s t : State} {b : Byte} :
    ibWrite s b = .next t ↔ exceeds (s.ib.length + 1) s.cfg.capBuf = false ∧ t = setInput (s.ib ++ [b]) s.cur s := by
  unfold ibWrite
  split
  · next h => simp [h]
  · next h => simp [h, eq_comm]

theorem ibWriteAll_cons {s t : State} {b : Byte} (bs : List Byte) (h : ibWrite s b = .next t) :
    ibWriteAll (b :: bs) s = ibWriteAll bs t := by rw [ibWriteAll, h]

end Sys2Proof.Machine
end

