-- ==== Sys2Proof/Laws/Step.lean ====
section
/-! SUPPORT. What one step can do, once: the five cases of the host's next action. -/

namespace Sys2Proof.Machine

@[simp] theorem takeAction_nil {s : State} (h : s.pending = []) : takeAction s = none := by simp [takeAction, h]

@[simp] theorem takeAction_cons {s : State} {a : HostAction} {rest : List HostAction} (h : s.pending = a :: rest) :
    takeAction s = some (a, setPending rest s) := by simp [takeAction, h]

/-- Every next state of a step comes from one of these. -/
theorem step_cases {s t : State} (h : step s = .next t) :
    (s.pending = [] ∧ t = s) ∨
    (∃ w rest, s.pending = .issue w :: rest ∧ exec (decode w) (setPending rest s) = .next t) ∨
    (∃ b rest, s.pending = .load b :: rest ∧ exceeds b.length s.cfg.capBuf = false ∧
      t = setInput b 0 (setPending rest s)) ∨
    (∃ p rest, s.pending = .read p :: rest ∧ t = setPending rest s) ∨
    (∃ rest, s.pending = .reset :: rest ∧ t = setPending rest (State.resetWith s.cfg)) := by
  match hp : s.pending with
  | [] =>
    rw [step, takeAction_nil hp] at h
    exact .inl ⟨rfl, by cases h; rfl⟩
  | .issue w :: rest =>
    rw [step, takeAction_cons hp] at h
    exact .inr (.inl ⟨w, rest, rfl, h⟩)
  | .load b :: rest =>
    rw [step, takeAction_cons hp] at h
    obtain ⟨hb, rfl⟩ := hostLoad_eq_next.1 h
    exact .inr (.inr (.inl ⟨b, rest, rfl, hb, rfl⟩))
  | .read p :: rest =>
    rw [step, takeAction_cons hp] at h
    cases h
    exact .inr (.inr (.inr (.inl ⟨p, rest, rfl, rfl⟩)))
  | .reset :: rest =>
    rw [step, takeAction_cons hp] at h
    cases h
    exact .inr (.inr (.inr (.inr ⟨rest, rfl, rfl⟩)))

end Sys2Proof.Machine
end

