-- ==== Sys2Proof/Laws/Words.lean ====
section
/-! SUPPORT. Small facts about words, bytes and outcomes that later proofs cite. -/

namespace Sys2Proof.Machine

/-- A byte of a word by its number: `v[k+7:k]` is `v / 2^k` modulo 256. -/
theorem extract_byte {v : Word} {n k : Nat} {b : Byte} (hv : v.toNat = n) (hm : n / 2 ^ k % 2 ^ 8 = b.toNat) :
    v.extractLsb' k 8 = b := by
  apply BitVec.eq_of_toNat_eq
  rw [BitVec.extractLsb'_toNat, Nat.shiftRight_eq_div_pow, hv, hm]

/-- A length that fits 32 bits is read back from the length field (spec/42_chunk.md rule R167). -/
theorem ofNat_length {n : Nat} (h : n ≤ 2 ^ 32 - 1) : (BitVec.ofNat 32 n).toNat = n := by
  rw [BitVec.toNat_ofNat, Nat.mod_eq_of_lt (by omega)]

@[simp] theorem mapNext_next (f : State → State) (s : State) : mapNext f (.next s) = .next (f s) := rfl

theorem mapNext_ite {P : Prop} [Decidable P] (f : State → State) (a b : Result) :
    mapNext f (if P then a else b) = if P then mapNext f a else mapNext f b := by split <;> rfl

theorem typeOfBytes_ite (t : TypeCode) :
    typeOfBytes (typeBytes t) = if typeValid t = true then some t else none := rfl

end Sys2Proof.Machine
end

