-- ==== Sys2Proof/Tests/Slice0.lean ====
section
/-! SUPPORT. The model's own tests. Expected values come from spec/95_test_vectors.md (the vector's name is in the test's
comment) or are written out from the encoding of spec/30_encoding.md; then the witnesses: for each statement with
hypotheses, concrete states and operands that meet them, clause by clause. -/

namespace Sys2Proof.Tests

open Sys2Proof Sys2Proof.Machine Sys2Proof.Statements

/-! ### Helpers -/

/-- The next state a command gives. -/
def after (i : Instr) (s : State) : Option State :=
  match exec i s with
  | .next t => some t
  | .fault _ => none
  | .refused _ => none

/-- The reset state with these bytes loaded. -/
def loaded (b : List Byte) : State := { State.reset with ib := b }

/-- The parameters of vectors Q1 to Q5. -/
def small : Config where
  capBuf := .finite 32
  capData := 4
  capChunks := .finite 2
  capStore := .finite 6
  aw := .bits 6

/-- An engine with those parameters and these bytes loaded. -/
def smallLoaded (b : List Byte) : State := { State.resetWith small with ib := b }

def tRuSt : TypeCode := ⟨0x52#8, 0x75#8, 0x53#8, 0x74#8⟩
def truSt : TypeCode := ⟨0x72#8, 0x75#8, 0x53#8, 0x74#8⟩
def tBad : TypeCode := ⟨0x52#8, 0x75#8, 0x31#8, 0x74#8⟩
def cFrSt : Chunk := ⟨⟨0x46#8, 0x72#8, 0x53#8, 0x74#8⟩, [0x6F#8, 0x6E#8, 0x65#8], 0xE29EEEC4#32⟩
def cNew : Chunk := ⟨⟨0x46#8, 0x72#8, 0x53#8, 0x74#8⟩, [0x6E#8, 0x65#8, 0x77#8], 0xF3112C70#32⟩
def cmiDl : Chunk := ⟨⟨0x6D#8, 0x69#8, 0x44#8, 0x6C#8⟩, [0x74#8, 0x77#8, 0x6F#8, 0x32#8], 0x67B8DEF5#32⟩
def cIEND : Chunk := ⟨⟨0x49#8, 0x45#8, 0x4E#8, 0x44#8⟩, [], 0xAE426082#32⟩
def cruSt : Chunk := ⟨truSt, [0x68#8, 0x69#8], 0xD5103A45#32⟩

def fFrSt : List Byte := [0#8, 0#8, 0#8, 3#8, 0x46#8, 0x72#8, 0x53#8, 0x74#8, 0x6F#8, 0x6E#8, 0x65#8, 0xE2#8, 0x9E#8, 0xEE#8, 0xC4#8]
def fNew : List Byte := [0#8, 0#8, 0#8, 3#8, 0x46#8, 0x72#8, 0x53#8, 0x74#8, 0x6E#8, 0x65#8, 0x77#8, 0xF3#8, 0x11#8, 0x2C#8, 0x70#8]
def fmiDl : List Byte := [0#8, 0#8, 0#8, 4#8, 0x6D#8, 0x69#8, 0x44#8, 0x6C#8, 0x74#8, 0x77#8, 0x6F#8, 0x32#8, 0x67#8, 0xB8#8, 0xDE#8, 0xF5#8]
def fIEND : List Byte := [0#8, 0#8, 0#8, 0#8, 0x49#8, 0x45#8, 0x4E#8, 0x44#8, 0xAE#8, 0x42#8, 0x60#8, 0x82#8]
def fruSt : List Byte := [0#8, 0#8, 0#8, 2#8, 0x72#8, 0x75#8, 0x53#8, 0x74#8, 0x68#8, 0x69#8, 0xD5#8, 0x10#8, 0x3A#8, 0x45#8]
def theSig : List Byte := [0x89#8, 0x50#8, 0x4E#8, 0x47#8, 0x0D#8, 0x0A#8, 0x1A#8, 0x0A#8]
def buf51 : List Byte := theSig ++ fFrSt ++ fmiDl ++ fIEND

/-- The state after vector T2 (the store holds `FrSt`, `miDl`, `IEND`), with these bytes loaded. -/
def afterT2 (b : List Byte) : State := { loaded b with cs := [cFrSt, cmiDl, cIEND] }

/-! ### WellFormed: an ill-formed term for each check (rules R102, R104) -/

theorem test_wf_refuses_reserved_opcode : (Instr.reservedE 0#32).wf = false := by decide
theorem test_wf_refuses_arg_without_use : (Instr.chNew 0xFFFFFFFF#32).wf = false := by decide
theorem test_wf_accepts_index : (Instr.ctGet 2#32).wf = true := by decide
theorem test_config_wf_refuses_narrow_cursor : (Config.mk (.finite 32) 4 (.finite 2) (.finite 6) (.bits 5)).wf = false := by decide
theorem test_config_wf_refuses_short_buffer : (Config.mk (.finite 11) 4 (.finite 2) (.finite 6) (.bits 5)).wf = false := by decide
theorem test_config_wf_refuses_long_data : (Config.mk .unbounded (2 ^ 32) .unbounded .unbounded .unbounded).wf = false := by decide
theorem test_config_wf_refuses_unbounded_width : (Config.mk (.finite 32) 4 (.finite 2) (.finite 6) .unbounded).wf = false := by decide

/-! ### Decode: every constructor's word, written out bit by bit from rules R100 and R101 -/

theorem test_decode_nop : decode 0b000000000000000000000000000000000000#36 = .nop 0#32 := by decide
theorem test_decode_crcClr : decode 0b000100000000000000000000000000000000#36 = .crcClr 0#32 := by decide
theorem test_decode_crcUpd : decode 0b001000000000000000000000000000000000#36 = .crcUpd 0#32 := by decide
theorem test_decode_tcParse : decode 0b001100000000000000000000000000000000#36 = .tcParse 0#32 := by decide
theorem test_decode_tcParses : decode 0b010000000000000000000000000000000000#36 = .tcParses 0#32 := by decide
theorem test_decode_chNew : decode 0b010111111111111111111111111111111111#36 = .chNew 0xFFFFFFFF#32 := by decide
theorem test_decode_chParse : decode 0b011000000000000000000000000000000000#36 = .chParse 0#32 := by decide
theorem test_decode_chSer : decode 0b011110000000000000000000000000000000#36 = .chSer 0x80000000#32 := by decide
theorem test_decode_ctParse : decode 0b100000000000000000000000000000000000#36 = .ctParse 0#32 := by decide
theorem test_decode_ctAppend : decode 0b100100000000000000000000000000000000#36 = .ctAppend 0#32 := by decide
theorem test_decode_ctFind : decode 0b101000000000000000000000000000000001#36 = .ctFind 1#32 := by decide
theorem test_decode_ctRemove : decode 0b101100000000000000000000000000000000#36 = .ctRemove 0#32 := by decide
theorem test_decode_ctGet : decode 0b110000000000000000000000000000000010#36 = .ctGet 2#32 := by decide
theorem test_decode_ctSer : decode 0b110100000000000000000000000000000000#36 = .ctSer 0#32 := by decide
theorem test_decode_reservedE : decode 0b111000000000000000000000000000000000#36 = .reservedE 0#32 := by decide
theorem test_decode_reservedF : decode 0xF12345678#36 = .reservedF 0x12345678#32 := by decide
theorem test_decode_number_too_wide : decodeNumber 0x1000000000 = .error .widerThanCommandWord := by rfl
theorem test_decode_table_word : decodeTableWord 40 0xC00000002 = some (.ctGet 2#32) := by decide
theorem test_encode_ctGet : encode (.ctGet 2#32) = 0xC00000002#36 := by decide
/-- Rule R101: no two rows of the opcode map overlap. -/
theorem test_rows_disjoint : opcodeRows.Pairwise (fun r q => r.2.1 ≠ q.2.1) := by decide

/-! ### One step on a small state, at most two a command -/

/-- X8. -/
theorem test_nop : (after (.nop 0xDEADBEEF#32) { State.reset with w := some cIEND, err := 7#3, rsn := 1#2 }).map status = some 0x80#32 := by decide
/-- A35. -/
theorem test_crcClr : (after (.crcClr 0#32) { loaded [0x35#8] with crc := 0x340BC6D9#32, cur := 1 }).map (fun t => (t.crc, crcOut t, t.cur)) = some (0xFFFFFFFF#32, 0#32, 1) := by decide
/-- A33. -/
theorem test_crcUpd : (after (.crcUpd 0#32) { loaded [0x35#8, 0x36#8, 0x37#8, 0x38#8, 0x39#8] with crc := 0x641C1F5C#32 }).map (fun t => (t.crc, crcOut t, t.cur)) = some (0x340BC6D9#32, 0xCBF43926#32, 5) := by decide +kernel
/-- A34. -/
theorem test_crcUpd_empty : (after (.crcUpd 0#32) { loaded [0x35#8] with crc := 0x340BC6D9#32, cur := 1 }).map (fun t => (t.crc, t.cur)) = some (0x340BC6D9#32, 1) := by decide
/-- B22. -/
theorem test_tcParse : (after (.tcParse 0#32) (loaded [0x52#8, 0x75#8, 0x53#8, 0x74#8, 0x78#8])).map (fun t => (tcode t, t.cur, status t)) = some (0x52755374#32, 4, 0xD40#32) := by decide
/-- B23. -/
theorem test_tcParse_short : (after (.tcParse 0#32) (loaded [0x52#8, 0x75#8, 0x53#8])).map (fun t => (status t, t.cur)) = some (0x17#32, 0) := by decide
/-- B4: a violated reserved bit, still valid. -/
theorem test_tcParses : (after (.tcParses 0#32) (loaded [0x52#8, 0x75#8, 0x73#8, 0x74#8])).map (fun t => (tcode t, t.cur, status t)) = some (0x52757374#32, 4, 0x940#32) := by decide
/-- B19, with the register valid before (B26). -/
theorem test_tcParses_error : (after (.tcParses 0#32) { loaded [0xC1#8, 0x75#8, 0x53#8, 0x74#8] with t := some tRuSt }).map (fun t => (tcode t, t.cur, status t)) = some (0#32, 0, 1#32) := by decide
/-- K20. -/
theorem test_chNew : (after (.chNew 0#32) { loaded [0x68#8, 0x69#8] with t := some truSt }).map (fun t => (t.w, t.cur, status t)) = some (some cruSt, 2, 0xCC0#32) := by decide +kernel
/-- Q1. -/
theorem test_chNew_capacity : (after (.chNew 0#32) { smallLoaded [0x68#8, 0x65#8, 0x6C#8, 0x6C#8, 0x6F#8] with t := some truSt }).map (fun t => (t.w, t.cur, status t)) = some (none, 0, 0xC5F#32) := by decide
/-- K15. -/
theorem test_chParse : (after (.chParse 0#32) (loaded (fruSt ++ [0xAA#8, 0xBB#8, 0xCC#8]))).map (fun t => (t.w, t.cur, status t)) = some (some cruSt, 14, 0x80#32) := by decide +kernel
/-- K12: no 32-bit wrap. -/
theorem test_chParse_no_wrap : (after (.chParse 0#32) { loaded ([0xFF#8, 0xFF#8, 0xFF#8, 0xFF#8] ++ fIEND.drop 4) with w := some cruSt }).map (fun t => (t.w, t.cur, status t)) = some (none, 0, 2#32) := by decide +kernel
/-- Q5. -/
theorem test_chSer : (after (.chSer 0#32) { smallLoaded [] with t := some truSt, w := some cruSt }).map (fun t => (t.ob, status t)) = some (fruSt, 0xCC0#32) := by decide
/-- K25. -/
theorem test_chSer_refused : (after (.chSer 0#32) { loaded [] with ob := fIEND }).map (fun t => (t.ob, status t)) = some (fIEND, 0x17#32) := by decide
/-- T2. -/
theorem test_ctParse : (after (.ctParse 0#32) (loaded buf51)).map (fun t => (t.cs, t.cur, status t)) = some ([cFrSt, cmiDl, cIEND], 51, 0#32) := by decide +kernel
/-- Q8: chunk 0 has more data than `CAP_DATA`. -/
theorem test_ctParse_capacity : (after (.ctParse 0#32) { State.resetWith { small with capBuf := .finite 64, capData := 2 } with ib := buf51 }).map (fun t => (t.cs, t.cur, status t)) = some ([], 0, 0x1F#32) := by decide +kernel
/-- T10: at the tail, after `IEND`. -/
theorem test_ctAppend : (after (.ctAppend 0#32) { afterT2 [] with w := some cruSt }).map (fun t => (t.cs, nChunks t, t.w)) = some ([cFrSt, cmiDl, cIEND, cruSt], 4, some cruSt) := by decide
/-- Q3. -/
theorem test_ctAppend_capacity : (after (.ctAppend 0#32) { smallLoaded [] with t := some truSt, w := some cruSt, cs := [cruSt, cruSt] }).map (fun t => (nChunks t, status t)) = some (2, 0xCDF#32) := by decide
/-- T4e. -/
theorem test_ctFind : (after (.ctFind 0#32) (afterT2 [0x6D#8, 0x69#8, 0x44#8, 0x6C#8])).map (fun t => (t.w, t.cs.length, status t)) = some (some cmiDl, 3, 0xA0#32) := by decide
/-- T4c: matching is case-sensitive, and absence is no error. -/
theorem test_ctFind_absent : (after (.ctFind 0#32) (afterT2 [0x6D#8, 0x69#8, 0x64#8, 0x6C#8])).map (fun t => (t.w, t.cur, status t)) = some (none, 4, 0#32) := by decide
/-- T11: the older of two chunks of one type. -/
theorem test_ctRemove : (after (.ctRemove 0#32) { loaded [0x46#8, 0x72#8, 0x53#8, 0x74#8] with cs := [cFrSt, cmiDl, cIEND, cNew] }).map (fun t => (t.w, t.cs, t.found)) = some (some cFrSt, [cmiDl, cIEND, cNew], true) := by decide
/-- T4. -/
theorem test_ctRemove_absent : (after (.ctRemove 0#32) { afterT2 [0x74#8, 0x45#8, 0x58#8, 0x74#8] with w := some cruSt }).map (fun t => (t.w, t.cs.length, t.cur, status t)) = some (none, 3, 0, 6#32) := by decide
/-- T4g, the last index. -/
theorem test_ctGet : (after (.ctGet 2#32) (afterT2 [])).map (fun t => (t.w, status t)) = some (some cIEND, 0x80#32) := by decide
/-- T4g, one past the last index. -/
theorem test_ctGet_refused : (after (.ctGet 3#32) { afterT2 [] with w := some cIEND }).map (fun t => (t.w, status t)) = some (some cIEND, 0x97#32) := by decide
/-- T11's output. -/
theorem test_ctSer : (after (.ctSer 0#32) { loaded [] with cs := [cmiDl, cIEND, cNew] }).map (fun t => (t.ob, obLen t)) = some (theSig ++ fmiDl ++ fIEND ++ fNew, 51) := by decide
/-- Q4: 36 bytes into a buffer of 32. -/
theorem test_ctSer_capacity : (after (.ctSer 0#32) { smallLoaded [] with t := some truSt, w := some cruSt, cs := [cruSt, cruSt] }).map (fun t => (obLen t, status t)) = some (0, 0xCDF#32) := by decide
/-- X6. -/
theorem test_reservedE : (after (.reservedE 0#32) { State.reset with w := some cIEND }).map status = some 0x8F#32 := by decide
/-- X7. -/
theorem test_reservedF : (after (.reservedF 0x12345678#32) { State.reset with w := some cIEND }).map status = some 0x8F#32 := by decide

/-! ### The shared operations -/

/-- A7, A9, A10. -/
theorem test_crcByte : crcByte 0xFFFFFFFF#32 0x61#8 = 0x174841BC#32 ∧ crcByte 0x80000000#32 0#8 = 0x00800000#32 ∧
    crcByte 0x12345678#32 0x9A#8 = 0x4E16B702#32 := by decide +kernel
/-- A10 by the table form. -/
theorem test_crcByteByTable : crcByteByTable 0x12345678#32 0x9A#8 = 0x4E16B702#32 := by decide +kernel
/-- A11, A16, A20. -/
theorem test_crc32 : crc32 [] = 0#32 ∧
    crc32 [0x31#8, 0x32#8, 0x33#8, 0x34#8, 0x35#8, 0x36#8, 0x37#8, 0x38#8, 0x39#8] = 0xCBF43926#32 ∧
    crc32 [0x49#8, 0x45#8, 0x4E#8, 0x44#8] = 0xAE426082#32 := by decide +kernel
/-- A23 (the source's own number, S1): the type `RuSt` and the 42 bytes of the message. -/
theorem test_crc32_of_the_source : (crc32 (typeBytes tRuSt ++
    [0x54#8, 0x68#8, 0x69#8, 0x73#8, 0x20#8, 0x69#8, 0x73#8, 0x20#8, 0x77#8, 0x68#8, 0x65#8, 0x72#8, 0x65#8, 0x20#8,
     0x79#8, 0x6F#8, 0x75#8, 0x72#8, 0x20#8, 0x73#8, 0x65#8, 0x63#8, 0x72#8, 0x65#8, 0x74#8, 0x20#8, 0x6D#8, 0x65#8,
     0x73#8, 0x73#8, 0x61#8, 0x67#8, 0x65#8, 0x20#8, 0x77#8, 0x69#8, 0x6C#8, 0x6C#8, 0x20#8, 0x62#8, 0x65#8, 0x21#8])).toNat
    = 2882656334 := by decide +kernel
/-- A38, A39: the little-endian residue of rule R132, and none for the big-endian checksum of a frame. -/
theorem test_crc_residue : crcRaw crcInit ([0x49#8, 0x45#8, 0x4E#8, 0x44#8] ++ [0x82#8, 0x60#8, 0x42#8, 0xAE#8]) = 0xDEBB20E3#32 ∧
    crcRaw crcInit ([0x49#8, 0x45#8, 0x4E#8, 0x44#8] ++ [0xAE#8, 0x42#8, 0x60#8, 0x82#8]) = 0x9AFC8828#32 := by decide +kernel
/-- K3, K14: step 1 comes before step 3. -/
theorem test_parse_short : parseChunk (fruSt.take 11) = .error .truncated ∧
    parseChunk [0#8, 0#8, 0#8, 0#8, 0x49#8, 0x45#8, 0x31#8, 0x44#8, 0#8, 0#8, 0#8] = .error .truncated := ⟨rfl, rfl⟩
/-- K13: step 3 comes before step 4. -/
theorem test_parse_bad_type : parseChunk [0xFF#8, 0xFF#8, 0xFF#8, 0xFF#8, 0x49#8, 0x45#8, 0x31#8, 0x44#8, 0#8, 0#8, 0#8, 0#8] = .error .invalidTypeCode := rfl
/-- The error kind of a parse, for the tests below. -/
def kindOf {α : Type} : Except ErrorKind α → Option ErrorKind
  | .ok _ => none
  | .error k => some k
/-- K9: a length bit flipped down. -/
theorem test_parse_length_flip : kindOf (parseChunk ([0#8, 0#8, 0#8, 0#8] ++ fruSt.drop 4)) = some .checksumMismatch := by decide +kernel
/-- T3b, T6b, T8a. -/
theorem test_container_errors : kindOf (parseContainer (buf51.take 50)) = some .truncated ∧
    kindOf (parseContainer (buf51 ++ List.replicate 12 0#8)) = some .invalidTypeCode ∧
    kindOf (parseContainer (buf51.set 16 0x6E#8)) = some .checksumMismatch := by decide +kernel
/-- T5a, T5b, T5d. -/
theorem test_container_signature : kindOf (parseContainer []) = some .badSignature ∧
    kindOf (parseContainer (theSig.take 7)) = some .badSignature ∧
    kindOf (parseContainer (buf51.set 7 0x0D#8)) = some .badSignature := by decide +kernel
/-- T13, by a step that the host's next action starts. -/
theorem test_step_runs_offered_word : step (State.reset.withFetchWord 40 0xD00000000) = .next { State.reset with ob := theSig } := by rfl
/-- B14 to B17: the four bytes next to the ranges of letters. -/
theorem test_isLetter_ends : ([0x40#8, 0x5B#8, 0x60#8, 0x7B#8].any isLetter) = false ∧ ([0x41#8, 0x5A#8, 0x61#8, 0x7A#8].all isLetter) = true := by decide
/-- Rule R216: `reg_data` is 32 bits where `AW` is narrower and `AW` bits where it is wider; `ob_addr` is `AW` bits. -/
theorem test_port_widths : portWidth small .regData = .bits 32 ∧ portWidth { small with aw := .bits 40 } .regData = .bits 40 ∧
    portWidth small .obAddr = .bits 6 ∧ portWidth small .cmdWord = .bits 36 := by decide
/-- Rule R216 on an `AW` of 6 bits: the last address, and one past it. -/
theorem test_obData_addresses : obData 0 { smallLoaded [] with ob := [0x89#8] } = some 0x89#8 ∧
    obData 63 (smallLoaded []) = some 0#8 ∧ obData 64 (smallLoaded []) = none := by decide
/-- Rule R210: a refused response reads as the refused outcome, an error as its kind. -/
theorem test_response : (after (.reservedE 0#32) State.reset).map response = some (.refused .opcode) ∧
    (after (.ctRemove 0#32) State.reset).map response = some (.error .notFound) := by decide

/-! ### Witnesses: states and operands that meet each statement's hypotheses -/

theorem over_iff {n : Nat} {c : Cap} : Over n c ↔ exceeds n c = true := by cases c <;> simp [Over]

theorem letters_iff {t : TypeCode} : FourLetters t ↔ typeValid t = true := by
  simp [FourLetters, Letter, typeValid, isLetter, BitVec.le_def, and_assoc]

theorem good_iff {c : Chunk} : GoodChunk c ↔
    typeValid c.type = true ∧ c.crc = crc32 (typeBytes c.type ++ c.data) ∧ c.data.length ≤ 2 ^ 32 - 1 := by
  rw [GoodChunk, letters_iff]

theorem next_of_after {i : Instr} {s t : State} (h : after i s = some t) : exec i s = .next t := by
  unfold after at h
  split at h
  · next e => cases h; exact e
  · cases h
  · cases h

/-- Four letters, and four bytes one of which is not. -/
theorem witness_letters : FourLetters tRuSt ∧ FourLetters truSt ∧ ¬ FourLetters tBad := by
  simp only [letters_iff]; decide

theorem witness_goodChunk : GoodChunk cFrSt ∧ GoodChunk cmiDl ∧ GoodChunk cIEND ∧ GoodChunk cruSt ∧ GoodChunk cNew := by
  simp only [good_iff]; decide +kernel

/-- A capacity at its boundary: 32 bytes fit 32, 33 do not, anything fits ∞. -/
theorem witness_over : ¬ Over 32 small.capBuf ∧ Over 33 small.capBuf ∧ ¬ Over 33 Cap.unbounded := by
  simp only [over_iff]; decide

theorem witness_ArgIsIgnoredExceptByCtGet : opcodeOf (.nop 0#32) = opcodeOf (.nop 0xDEADBEEF#32) ∧ opcodeOf (.nop 0#32) ≠ 0xC#4 := by decide

/-- The least buffer of rule R8 with the narrowest cursor. -/
theorem witness_ResetMeetsTheInvariant : (Config.mk (.finite 12) 0 (.finite 0) (.finite 0) (.bits 4)).wf = true ∧ small.wf = true ∧ Config.docFaithful.wf = true := by decide

theorem witness_ResetLeavesTheSpecsValues :
    (State.reset = State.reset ∨ ∃ c : Config, State.reset = State.resetWith c) ∧
    (State.resetWith small = State.reset ∨ ∃ c : Config, State.resetWith small = State.resetWith c) := ⟨.inl rfl, .inr ⟨small, rfl⟩⟩

theorem witness_EveryStepKeepsTheInvariant_issue :
    State.Inv { smallLoaded fruSt with pending := [.issue 0x600000000#36] } ∧
    ∃ t, step { smallLoaded fruSt with pending := [.issue 0x600000000#36] } = .next t ∧ t.w = some cruSt := by
  refine ⟨by decide, ?_⟩
  exact ⟨{ smallLoaded fruSt with w := some cruSt, cur := 14 }, next_of_after (i := .chParse 0#32) (s := smallLoaded fruSt) (by decide +kernel), rfl⟩

theorem witness_EveryStepKeepsTheInvariant_host :
    State.Inv { afterT2 [] with pending := [.load buf51, .read (.reg 0#4), .reset] } ∧
    ∃ t, step { afterT2 [] with pending := [.load buf51, .read (.reg 0#4), .reset] } = .next t ∧ t.ib = buf51 := by
  refine ⟨by decide +kernel, _, rfl, rfl⟩

theorem witness_StepRunsTheDecodedCommand :
    ({ State.reset with pending := [.issue 0xC00000002#36, .reset] } : State).pending = .issue 0xC00000002#36 :: [.reset] ∧
    0xC00000002#36 = encode (.ctGet 2#32) := by decide

/-- A load of exactly `CAP_BUF` bytes, and one of a byte more. -/
theorem witness_HostLoadReplacesTheInputBuffer :
    ¬ Over (List.replicate 32 0#8).length (smallLoaded []).cfg.capBuf ∧ Over (List.replicate 33 0#8).length (smallLoaded []).cfg.capBuf := by
  simp only [over_iff]; decide

/-- The last byte of `OB` and of `WDATA`, one past it, and no chunk. -/
theorem witness_HostReadsChangeNothing :
    ({ State.reset with ob := fIEND } : State).ob[11]? = some 0x82#8 ∧ ({ State.reset with ob := fIEND } : State).ob.length ≤ 12 ∧
    ({ State.reset with w := some cruSt } : State).w = some cruSt ∧ cruSt.data[(1#32).toNat]? = some 0x69#8 ∧
    cruSt.data.length ≤ (2#32).toNat ∧ State.reset.w = none := by decide

/-- A finite and an unbounded width; states that meet the invariants; a count that fits the port; the last byte of `OB`, the
last address of `AW` bits and one past it. -/
theorem witness_PortsShowTheViewsInTheirWidths :
    small.aw = .bits 6 ∧ Config.docFaithful.aw = .unbounded ∧ State.Inv { smallLoaded [] with ob := fIEND } ∧ State.Inv (afterT2 []) ∧
    fitsWidth (readReg 7#4 (smallLoaded [])) (portWidth small .regData) = true ∧ (1#4 : BitVec 4) ≠ 7#4 ∧
    (afterT2 []).cs.length < 2 ^ 32 ∧ (afterT2 []).cfg.aw = .unbounded ∧
    fitsWidth 64 small.aw = false ∧ fitsWidth 63 small.aw = true ∧ ({ smallLoaded [] with ob := fIEND } : State).ob.length ≤ 63 ∧
    ({ smallLoaded [] with ob := fIEND } : State).ob[11]? = some 0x82#8 := by decide +kernel

theorem witness_ResetAndIdleSteps :
    ({ afterT2 fIEND with pending := [.reset] } : State).pending = .reset :: [] ∧ (afterT2 fIEND).pending = [] := by decide

theorem witness_StepsNeverFault :
    step { smallLoaded [] with pending := [.load (List.replicate 33 0#8)] } = .refused .loadNotEnabled := by rfl

theorem witness_CrcUpdAbsorbsTheSpan :
    ({ loaded fIEND with cur := 12 } : State).ib.length ≤ ({ loaded fIEND with cur := 12 } : State).cur := by decide

/-- Three bytes; exactly four letters; four letters and more; four bytes that are not letters. -/
theorem witness_TcParseTakesFourBytes :
    (span (loaded [0x52#8, 0x75#8, 0x53#8])).length < 4 ∧ span (loaded (typeBytes tRuSt)) = typeBytes tRuSt ++ [] ∧
    span (loaded (typeBytes tRuSt ++ [0x78#8])) = typeBytes tRuSt ++ [0x78#8] ∧
    span (loaded (typeBytes tBad ++ [0x78#8])) = typeBytes tBad ++ [0x78#8] ∧ FourLetters tRuSt ∧ ¬ FourLetters tBad := by
  simp only [letters_iff]; decide

/-- Four letters; four bytes that are not; four letters and a byte more. -/
theorem witness_TcParsesTakesTheWholeSpan :
    span (loaded (typeBytes tRuSt)) = typeBytes tRuSt ∧ FourLetters tRuSt ∧
    (∀ t : TypeCode, span (loaded (typeBytes tBad)) = typeBytes t → ¬ FourLetters t) ∧
    (∀ t : TypeCode, span (loaded (typeBytes tRuSt ++ [0x78#8])) = typeBytes t → ¬ FourLetters t) := by
  refine ⟨by decide, witness_letters.1, fun t h => ?_, fun t h => ?_⟩
  · exact typeBytes_injective (show typeBytes tBad = typeBytes t from h) ▸ witness_letters.2.2
  · exact absurd (congrArg List.length h) (by rw [typeBytes_length]; decide)

theorem span_loaded_length (b : List Byte) : (span (loaded b)).length = b.length := rfl

/-- No type; a span of one byte more than the length field says, and of exactly what it says; `CAP_DATA` and one more. -/
theorem witness_ChNewComposesAChunk :
    (loaded [0x78#8]).t = none ∧ (∃ b, 2 ^ 32 - 1 < (span (loaded b)).length) ∧
    (∃ b, (span (loaded b)).length = 2 ^ 32 - 1 ∧ (span (loaded b)).length ≤ (loaded b).cfg.capData) ∧
    small.capData < (span (smallLoaded [1#8, 2#8, 3#8, 4#8, 5#8])).length ∧
    (span (smallLoaded [1#8, 2#8, 3#8, 4#8])).length ≤ small.capData := by
  have long : ∀ n, ∃ b, (span (loaded b)).length = n := fun n =>
    ⟨List.replicate n 0#8, by rw [span_loaded_length, List.length_replicate]⟩
  refine ⟨rfl, ?_, ?_, by decide, by decide⟩
  · obtain ⟨b, h⟩ := long (2 ^ 32)
    exact ⟨b, by rw [h]; decide⟩
  · obtain ⟨b, h⟩ := long (2 ^ 32 - 1)
    exact ⟨b, h, h.le⟩

/-- A frame that fails, one with as many data bytes as `CAP_DATA`, one with more (an engine with `CAP_DATA = 2`). -/
theorem witness_ChParseTakesOneFrame :
    parseChunk (span (loaded (fruSt.take 11))) = .error .truncated ∧
    parseChunk (span (smallLoaded (fmiDl ++ [0#8]))) = .ok (cmiDl, 16) ∧ cmiDl.data.length ≤ small.capData ∧
    parseChunk (span ({ State.resetWith { small with capData := 2 } with ib := fmiDl })) = .ok (cmiDl, 16) ∧
    2 < cmiDl.data.length := by
  decide +kernel

/-- No chunk; a frame of one byte more than `CAP_BUF`, and of exactly `CAP_BUF`. -/
theorem witness_ChSerWritesTheFrame :
    State.reset.w = none ∧ Over (12 + (List.replicate 21 0#8).length) small.capBuf ∧
    ¬ Over (12 + (List.replicate 20 0#8).length) small.capBuf := by
  simp only [over_iff]; decide

/-- A buffer that fails; one that fits; one chunk too many, one too long, too much in all. -/
theorem witness_CtParseReplacesTheStore :
    parseContainer (span (loaded [])) = .error .badSignature ∧
    parseContainer (span (loaded buf51)) = .ok [cFrSt, cmiDl, cIEND] ∧
    ¬ Over [cFrSt, cruSt].length small.capChunks ∧ (∀ c ∈ [cFrSt, cruSt], c.data.length ≤ small.capData) ∧
    ¬ Over ([cFrSt, cFrSt].map fun c => c.data.length).sum small.capStore ∧
    Over [cFrSt, cmiDl, cIEND].length small.capChunks ∧ (∃ c ∈ [cFrSt, cmiDl], 3 < c.data.length) ∧
    Over ([cFrSt, cmiDl].map fun c => c.data.length).sum small.capStore := by
  simp only [over_iff]
  decide +kernel

/-- No chunk; the last chunk that fits and the last data that fits; one chunk too many; too much data. -/
theorem witness_CtAppendAddsAtTheTail :
    State.reset.w = none ∧ ({ smallLoaded [] with w := some cFrSt, cs := [cFrSt] } : State).w = some cFrSt ∧
    ¬ Over ([cFrSt].length + 1) small.capChunks ∧ ¬ Over (([cFrSt].map fun c => c.data.length).sum + cFrSt.data.length) small.capStore ∧
    Over ([cFrSt, cruSt].length + 1) small.capChunks ∧
    Over (([cFrSt].map fun c => c.data.length).sum + cmiDl.data.length) small.capStore := by
  simp only [over_iff]; decide

/-- The first chunk, a later one that an equal type does not precede, and none (a span that is no type code). -/
theorem witness_FirstMatch :
    FirstMatch [cFrSt, cmiDl, cNew] (typeBytes cNew.type) 0 cFrSt ∧ FirstMatch [cFrSt, cmiDl, cNew] (typeBytes cmiDl.type) 1 cmiDl ∧
    NoMatch [cFrSt, cmiDl, cNew] [0x6D#8] ∧ NoMatch [] [] := by
  refine ⟨⟨rfl, rfl, fun j d h => absurd h (Nat.not_lt_zero j)⟩, ⟨rfl, rfl, fun j d h hd => ?_⟩, by unfold NoMatch; decide, by unfold NoMatch; decide⟩
  obtain rfl : j = 0 := by omega
  cases hd; decide

theorem witness_CtFindReturnsTheFirstMatch :
    FirstMatch (afterT2 (typeBytes cmiDl.type)).cs (span (afterT2 (typeBytes cmiDl.type))) 1 cmiDl ∧
    NoMatch (afterT2 [0x6D#8]).cs (span (afterT2 [0x6D#8])) := by
  refine ⟨⟨rfl, rfl, fun j d h hd => ?_⟩, by unfold NoMatch; decide⟩
  obtain rfl : j = 0 := by omega
  cases hd; decide

theorem witness_CtRemoveTakesOutTheFirstMatch :
    FirstMatch (afterT2 (typeBytes cFrSt.type)).cs (span (afterT2 (typeBytes cFrSt.type))) 0 cFrSt ∧
    NoMatch (afterT2 []).cs (span (afterT2 [])) :=
  ⟨⟨rfl, rfl, fun j _ h => absurd h (Nat.not_lt_zero j)⟩, by unfold NoMatch; decide⟩

/-- The last index, and one past it. -/
theorem witness_CtGetCopiesByIndex : (afterT2 []).cs[(2#32).toNat]? = some cIEND ∧ (afterT2 []).cs.length ≤ (3#32).toNat := by decide

/-- 32 bytes of output exactly, and 36. -/
theorem witness_CtSerWritesTheContainer :
    ¬ Over (8 + ([cIEND, cIEND].map fun c => 12 + c.data.length).sum) small.capBuf ∧
    Over (8 + ([cruSt, cruSt].map fun c => 12 + c.data.length).sum) small.capBuf := by
  simp only [over_iff]; decide

theorem witness_CrcStepIsTheShiftRegister : (30 : Nat) ≤ 30 := by decide

theorem witness_OneByteChangeChangesTheCrc : (0x68#8 : Byte) ≠ 0x69#8 ∧ 7 < 8 := by decide

theorem witness_CrcUnitAgreesWithTheChunkUnit :
    ¬ Over (typeBytes truSt ++ [0x68#8, 0x69#8]).length (smallLoaded []).cfg.capBuf ∧
    ({ smallLoaded [0x68#8, 0x69#8] with t := some truSt } : State).t = some truSt ∧
    span { smallLoaded [0x68#8, 0x69#8] with t := some truSt } = [0x68#8, 0x69#8] ∧
    parseChunk fruSt = .ok (cruSt, 14) ∧ cruSt.type = truSt ∧ cruSt.data = [0x68#8, 0x69#8] := by
  simp only [over_iff]; decide +kernel

theorem witness_TypeViewsShowTheCode : State.reset.t = none ∧ ({ State.reset with t := some tRuSt } : State).t = some tRuSt := ⟨rfl, rfl⟩

theorem witness_StatusFieldsAndTheirUse :
    ∃ t u v, exec (.ctFind 0#32) (afterT2 (typeBytes cFrSt.type)) = .next t ∧ t.found = true ∧
      exec (.reservedE 0#32) State.reset = .next u ∧ u.err = 7#3 ∧ exec (.nop 0#32) State.reset = .next v ∧ v.err ≠ 7#3 :=
  ⟨_, _, _, rfl, rfl, rfl, rfl, rfl, by decide⟩

theorem witness_RegistersReadWithinTheirWidths : 11 ≤ (11#4).toNat ∧ State.Inv { afterT2 [] with w := some cruSt } ∧
    ({ afterT2 [] with w := some cruSt } : State).w = some cruSt := ⟨by decide, by decide +kernel, rfl⟩

/-- Eleven bytes; the shortest rest; a bad type; a length of one byte too many; a stored checksum that is right, wrong. -/
theorem witness_ParseChunkFollowsTheSixSteps :
    (fIEND.take 11).length < 12 ∧ 4 ≤ ([0xAE#8, 0x42#8, 0x60#8, 0x82#8] : List Byte).length ∧ ¬ FourLetters tBad ∧
    ([0xAE#8, 0x42#8, 0x60#8, 0x82#8] : List Byte).length < be 0#8 0#8 0#8 1#8 + 4 ∧ FourLetters cIEND.type ∧
    ([0xAE#8, 0x42#8, 0x60#8, 0x82#8] : List Byte) = [] ++ [0xAE#8, 0x42#8, 0x60#8, 0x82#8] ++ [] ∧
    ([] : List Byte).length = be 0#8 0#8 0#8 0#8 ∧
    (crc32 (typeBytes cIEND.type ++ [])).toNat = be 0xAE#8 0x42#8 0x60#8 0x82#8 ∧
    (crc32 (typeBytes cIEND.type ++ [])).toNat ≠ be 0xAE#8 0x42#8 0x60#8 0x83#8 := by
  simp only [letters_iff]; decide +kernel

theorem witness_FrameEncodingIsExactBothWays : GoodChunk cruSt ∧ parseChunk (fruSt ++ [0xAA#8]) = .ok (cruSt, 14) :=
  ⟨witness_goodChunk.2.2.2.1, by decide +kernel⟩

theorem witness_ComposedChunkSurvivesTheWire :
    (∀ t, ({ loaded [0x68#8, 0x69#8] with t := some truSt } : State).t = some t → FourLetters t) ∧
    ∃ a b, exec (.chNew 0#32) { loaded [0x68#8, 0x69#8] with t := some truSt } = .next a ∧ a.err = 0#3 ∧
      exec (.chSer 0#32) a = .next b ∧ b.err = 0#3 := by
  refine ⟨fun t h => ?_, ?_⟩
  · cases h; exact witness_letters.2.1
  · let a : State := { loaded [0x68#8, 0x69#8] with t := some truSt, w := some cruSt, cur := 2 }
    exact ⟨a, { a with ob := fruSt }, next_of_after (by decide +kernel), rfl, next_of_after (by decide +kernel), rfl⟩

/-- Data of one byte; a type that differs in one byte, still letters; one that is not; a wrong checksum; a longer length. -/
theorem witness_DamagedFramesAreRejected :
    FourLetters truSt ∧ ([0x68#8] : List Byte).length ≤ 2 ^ 32 - 1 ∧ ([0x68#8] : List Byte) = [] ++ 0x68#8 :: [] ∧
    (0x68#8 : Byte) ≠ 0x69#8 ∧ typeBytes truSt = [] ++ 0x72#8 :: [0x75#8, 0x53#8, 0x74#8] ∧
    typeBytes tRuSt = [] ++ 0x52#8 :: [0x75#8, 0x53#8, 0x74#8] ∧ FourLetters tRuSt ∧ ¬ FourLetters tBad ∧
    0#32 ≠ crc32 (typeBytes truSt ++ [0x68#8]) ∧ ([0x68#8] : List Byte).length < (2#32).toNat := by
  simp only [letters_iff]; decide +kernel

theorem witness_ParseContainerIsTheSpecsLoop :
    (theSig.take 7).length < 8 ∧ (buf51.set 0 0x88#8).take 8 ≠ sig ∧ fIEND.take 11 ≠ [] ∧
    parseChunk (fIEND.take 11) = .error .truncated ∧ parseChunk (fIEND ++ fruSt) = .ok (cIEND, 12) ∧
    parseFrames ((fIEND ++ fruSt.take 13).drop 12) = .error .truncated ∧
    parseFrames ((fIEND ++ fruSt).drop 12) = .ok [cruSt] := by
  decide +kernel

theorem witness_FirstFailureIsReported :
    (∀ c ∈ [cFrSt, cIEND], GoodChunk c) ∧ 1 ≤ ([0#8] : List Byte).length ∧ (List.replicate 11 0#8).length ≤ 11 ∧
    parseChunk (List.replicate 12 0#8) = .error .invalidTypeCode ∧ parseContainer [] = .error .badSignature := by
  refine ⟨?_, by decide, by decide, by decide +kernel, by decide +kernel⟩
  simp only [List.forall_mem_cons]
  exact ⟨witness_goodChunk.1, witness_goodChunk.2.2.1, nofun⟩

theorem witness_SerializedContainersParseBack : ∀ c ∈ [cFrSt, cFrSt], GoodChunk c := by
  simp only [List.forall_mem_cons]
  exact ⟨witness_goodChunk.1, witness_goodChunk.1, nofun⟩

theorem witness_ParsedContainersSerializeBack :
    parseContainer buf51 = .ok [cFrSt, cmiDl, cIEND] ∧ parseContainer theSig = .ok [] := by decide +kernel

/-- A buffer of exactly `CAP_BUF` bytes, holding exactly `CAP_CHUNKS` chunks. -/
theorem witness_LoadParseSerializeGivesTheBuffer :
    ¬ Over (theSig ++ fIEND ++ fIEND).length (smallLoaded []).cfg.capBuf ∧ parseContainer (theSig ++ fIEND ++ fIEND) = .ok [cIEND, cIEND] ∧
    ¬ Over [cIEND, cIEND].length (smallLoaded []).cfg.capChunks ∧ (∀ c ∈ [cIEND, cIEND], c.data.length ≤ (smallLoaded []).cfg.capData) ∧
    ¬ Over ([cIEND, cIEND].map fun c => c.data.length).sum (smallLoaded []).cfg.capStore := by
  simp only [over_iff]
  decide +kernel

theorem witness_FindFirstIsTheLeastIndex :
    (∀ c ∈ [cFrSt, cFrSt], GoodChunk c) ∧ ∀ u, typeBytes tBad = typeBytes u → ¬ FourLetters u :=
  ⟨witness_SerializedContainersParseBack, fun _ h => typeBytes_injective h ▸ witness_letters.2.2⟩

theorem witness_AppendLookUpRemove :
    ({ afterT2 [] with w := some cruSt } : State).w = some cruSt ∧ NoMatch (afterT2 []).cs (typeBytes cruSt.type) ∧
    ¬ Over ((afterT2 []).cs.length + 1) (afterT2 []).cfg.capChunks ∧
    ¬ Over (((afterT2 []).cs.map fun c => c.data.length).sum + cruSt.data.length) (afterT2 []).cfg.capStore ∧
    span (loaded (typeBytes cruSt.type)) = typeBytes cruSt.type := by
  simp only [over_iff, NoMatch]; decide

theorem witness_RemovalKeepsTheOrderOfTheRest :
    ∃ t, exec (.ctRemove 0#32) (afterT2 (typeBytes cmiDl.type)) = .next t ∧ t.err = 0#3 ∧ t.cs = [cFrSt, cIEND] := ⟨_, rfl, rfl, rfl⟩

theorem witness_ErrorsArePrecise :
    ∃ t u, exec (.ctRemove 0#32) (afterT2 []) = .next t ∧ endedInError t ∧
      exec (.tcParses 0#32) { loaded [] with t := some tRuSt } = .next u ∧ endedInError u := by
  refine ⟨_, _, rfl, ?_, rfl, ?_⟩ <;> (unfold endedInError; decide)

theorem witness_RefusalsWriteTheResponseOnly :
    ∃ t u v, exec (.reservedF 0#32) State.reset = .next t ∧ t.err = 7#3 ∧ t.rsn = 1#2 ∧
      exec (.ctGet 0#32) State.reset = .next u ∧ u.err = 7#3 ∧ u.rsn = 2#2 ∧
      exec (.ctAppend 0#32) { smallLoaded [] with w := some cruSt, cs := [cruSt, cruSt] } = .next v ∧ v.err = 7#3 ∧ v.rsn = 3#2 :=
  ⟨_, _, _, rfl, rfl, rfl, rfl, rfl, rfl, rfl, rfl, rfl⟩

/-- Both sides: a command that is refused for a precondition, and one that is not. -/
theorem witness_PreconditionRefusalsAreTheTable :
    ∃ t u, exec (.ctGet 3#32) (afterT2 []) = .next t ∧ t.err = 7#3 ∧ t.rsn = 2#2 ∧
      exec (.ctGet 2#32) (afterT2 []) = .next u ∧ u.err = 0#3 := ⟨_, _, rfl, rfl, rfl, rfl, rfl⟩

/-- Both sides: 36 bytes into 32, and 32 bytes; and an engine that never refuses for capacity. -/
theorem witness_CapacityRefusalsAreTheTable :
    ∃ t u, exec (.ctSer 0#32) { smallLoaded [] with cs := [cruSt, cruSt] } = .next t ∧ t.err = 7#3 ∧ t.rsn = 3#2 ∧
      exec (.ctSer 0#32) { smallLoaded [] with cs := [cIEND, cIEND] } = .next u ∧ u.err = 0#3 ∧
      State.reset.cfg = Config.docFaithful := ⟨_, _, rfl, rfl, rfl, rfl, rfl, rfl⟩

theorem witness_ErrorCodesAreRaisedAsTabled :
    ∃ t u v w, exec (.tcParse 0#32) (loaded (typeBytes tBad)) = .next t ∧ t.err = 1#3 ∧
      exec (.chParse 0#32) (loaded []) = .next u ∧ u.err = 2#3 ∧ exec (.ctParse 0#32) (loaded []) = .next v ∧ v.err = 5#3 ∧
      exec (.ctRemove 0#32) (loaded []) = .next w ∧ w.err = 6#3 := ⟨_, _, _, _, rfl, rfl, rfl, rfl, rfl, rfl, rfl, rfl⟩

theorem witness_CursorMovesPastWhatIsConsumed :
    (loaded (typeBytes tRuSt ++ [0x78#8])).cur ≤ (loaded (typeBytes tRuSt ++ [0x78#8])).ib.length ∧
    ∃ t u, exec (.tcParse 0#32) (loaded (typeBytes tRuSt ++ [0x78#8])) = .next t ∧ t.err = 0#3 ∧ t.cur = 4 ∧
      exec (.tcParses 0#32) (loaded (typeBytes tRuSt ++ [0x78#8])) = .next u ∧ u.err ≠ 0#3 ∧ u.cur = 0 :=
  ⟨by decide, _, _, rfl, rfl, rfl, rfl, by decide, rfl⟩

theorem witness_EmptySpanAndRepeatedErrors :
    ({ loaded fIEND with cur := 12, t := some tRuSt } : State).cur = ({ loaded fIEND with cur := 12, t := some tRuSt } : State).ib.length ∧
    ∃ t u, exec (.crcUpd 0#32) { loaded fIEND with cur := 12 } = .next t ∧ t.err = 0#3 ∧
      exec (.ctRemove 0#32) (afterT2 [0x78#8]) = .next u ∧ endedInError u := by
  refine ⟨by decide, _, _, rfl, rfl, rfl, ?_⟩
  unfold endedInError; decide

theorem witness_CommandsWriteOnlyWhatTheTableSays :
    ∃ t u, exec (.chSer 0#32) { loaded [] with w := some cIEND } = .next t ∧ t.ob = fIEND ∧ exec (.chSer 0#32) (loaded []) = .next u ∧ u.err ≠ 0#3 :=
  ⟨_, _, rfl, rfl, rfl, by decide⟩

theorem witness_CommandsReadOnlyWhatTheTableSays : opcodeOf (.ctSer 0#32) ≠ 0x2#4 ∧ opcodeOf (.ctSer 0#32) ∉ [0x7#4, 0x9#4] := by decide

end Sys2Proof.Tests
end

section
/-! The two big-endian conversions of spec/00_scope.md rule R13. Four bytes are the base-256 digits of one number
below 2^32 (`be`): `be32dec` builds that number, `be32` takes its digits, and the digits of a number are unique. -/

namespace Sys2Proof.Machine

open Sys2Proof.Statements (be)

/-- Four base-256 digits stay below 2^32, so `be32dec` never wraps. -/
theorem be_lt (a b c d : Byte) : be a b c d < 2 ^ 32 := by
  have ha := a.isLt
  have hb := b.isLt
  have hc := c.isLt
  have hd := d.isLt
  simp only [be]; omega

/-- Base-256 digits are unique. -/
theorem be_injective {a b c d a' b' c' d' : Byte} (h : be a b c d = be a' b' c' d') :
    a = a' ∧ b = b' ∧ c = c' ∧ d = d' := by
  simp only [be] at h
  refine ⟨?_, ?_, ?_, ?_⟩ <;> bv_omega

theorem be32dec_toNat (a b c d : Byte) : (be32dec [a, b, c, d]).toNat = be a b c d := by
  have hlt := be_lt a b c d
  rw [be32dec, BitVec.toNat_ofNat]
  exact Nat.mod_eq_of_lt hlt

/-- The bytes `be32` takes out of a word are the digits of its number. -/
theorem be_extractLsb' (v : Word) :
    be (v.extractLsb' 24 8) (v.extractLsb' 16 8) (v.extractLsb' 8 8) (v.extractLsb' 0 8) = v.toNat := by
  have hv := v.isLt
  simp only [be, BitVec.extractLsb'_toNat, Nat.shiftRight_eq_div_pow]
  omega

/-- Rule R13: `be32dec(be32(v)) = v`. -/
@[simp] theorem be32dec_be32 (v : Word) : be32dec (be32 v) = v :=
  BitVec.eq_of_toNat_eq ((be32dec_toNat _ _ _ _).trans (be_extractLsb' v))

/-- Rule R13: `be32(be32dec(b)) = b`; both sides are the digits of one number. -/
@[simp] theorem be32_be32dec (a b c d : Byte) : be32 (be32dec [a, b, c, d]) = [a, b, c, d] := by
  have hnum := (be_extractLsb' (be32dec [a, b, c, d])).trans (be32dec_toNat a b c d)
  obtain ⟨ha, hb, hc, hd⟩ := be_injective hnum
  simp only [be32, ha, hb, hc, hd]

/-- Settles O39: `be32` and `be32dec` are inverse, and `be32dec` is the weighted sum of its bytes. -/
theorem bigEndianConversionsAreInverse : Obligations.BigEndianConversionsAreInverse :=
  ⟨be32dec_be32, fun a b c d => ⟨be32_be32dec a b c d, be32dec_toNat a b c d⟩⟩

end Sys2Proof.Machine
end

section
/-! Everything a command can do, once: how it ends, what it writes, and the guards of each end (spec/10_state.md rule R37,
spec/60_exceptions.md rules R221, R225 to R229). `exec_ends` says that every command ends in one of these ways;
`Ends.exec_eq` says that the way and the values written depend on nothing but what the table of rule R37 lets it read. -/

namespace Sys2Proof.Machine

/-- What a command that ends ok writes: the new value of each piece of state, `none` where it leaves the piece alone. -/
structure Writes where
  crc : Option Word := none
  t : Option (Option TypeCode) := none
  w : Option (Option Chunk) := none
  cs : Option (List Chunk) := none
  cur : Option Nat := none
  ob : Option (List Byte) := none

/-- The state with the values written. -/
def Writes.apply (u : Writes) (s : State) : State :=
  { s with
    crc := u.crc.getD s.crc
    t := u.t.getD s.t
    w := u.w.getD s.w
    cs := u.cs.getD s.cs
    cur := u.cur.getD s.cur
    ob := u.ob.getD s.ob }

/-- The three ways a command ends (spec/00_scope.md rules R15, R16). -/
inductive Ending where
  | done (found : Bool) (u : Writes)
  | error (k : ErrorKind) (r : ResultReg)
  | refused (r : RefuseReason)

namespace Ending

/-- `STATUS.ERR` after it. -/
def err : Ending → BitVec 3
  | .done _ _ => 0#3
  | .error k _ => errCode k
  | .refused _ => errRefused

/-- `STATUS.RSN` after it. -/
def rsn : Ending → BitVec 2
  | .done _ _ | .error _ _ => 0#2
  | .refused r => rsnCode r

/-- `STATUS.FOUND` after it. -/
def found : Ending → Bool
  | .done f _ => f
  | .error _ _ | .refused _ => false

/-- What it writes beside the response fields: an error only marks the result register empty (rule R229 item 2), a refusal
writes nothing (rule R225). -/
def writes : Ending → Writes
  | .done _ u => u
  | .error _ .typeReg => { t := some none }
  | .error _ .workReg => { w := some none }
  | .error _ .store | .refused _ => {}

/-- The next state of a command that ends so. -/
def state (e : Ending) (s : State) : State := setResponse e.err e.rsn e.found (e.writes.apply s)

@[simp] theorem state_crc (e : Ending) (s : State) : (e.state s).crc = e.writes.crc.getD s.crc := rfl
@[simp] theorem state_t (e : Ending) (s : State) : (e.state s).t = e.writes.t.getD s.t := rfl
@[simp] theorem state_w (e : Ending) (s : State) : (e.state s).w = e.writes.w.getD s.w := rfl
@[simp] theorem state_cs (e : Ending) (s : State) : (e.state s).cs = e.writes.cs.getD s.cs := rfl
@[simp] theorem state_cur (e : Ending) (s : State) : (e.state s).cur = e.writes.cur.getD s.cur := rfl
@[simp] theorem state_ob (e : Ending) (s : State) : (e.state s).ob = e.writes.ob.getD s.ob := rfl
@[simp] theorem state_cfg (e : Ending) (s : State) : (e.state s).cfg = s.cfg := rfl
@[simp] theorem state_ib (e : Ending) (s : State) : (e.state s).ib = s.ib := rfl
@[simp] theorem state_pending (e : Ending) (s : State) : (e.state s).pending = s.pending := rfl
@[simp] theorem state_err (e : Ending) (s : State) : (e.state s).err = e.err := rfl
@[simp] theorem state_rsn (e : Ending) (s : State) : (e.state s).rsn = e.rsn := rfl
@[simp] theorem state_found (e : Ending) (s : State) : (e.state s).found = e.found := rfl

/-- The next state after an error is the one `raiseError` gives. -/
theorem state_error (k : ErrorKind) (r : ResultReg) (s : State) :
    (Ending.error k r).state s = setResponse (errCode k) 0#2 false (invalidate r s) := by
  cases r <;> rfl

/-- The next state after a refusal is the one `refuse` gives. -/
theorem state_refused (r : RefuseReason) (s : State) :
    (Ending.refused r).state s = setResponse errRefused (rsnCode r) false s := rfl

/-- Rule R43 item 5, first half: `ERR = 7` goes with a reason. -/
theorem err_eq_refused_iff (e : Ending) : e.err = errRefused ↔ e.rsn ≠ 0#2 := by
  cases e with
  | done f u => simp [err, rsn, errRefused]
  | error k r => simp [err, rsn, (errCode_range k).2]
  | refused r => simp [err, rsn, rsnCode_ne_zero r]

/-- Rule R43 item 5, second half: only a command that ends ok finds. -/
theorem err_of_found {e : Ending} (h : e.found = true) : e.err = 0#3 := by
  cases e with
  | done f u => rfl
  | error k r => cases h
  | refused r => cases h

/-- Only a command that ends ok writes `CRC`, `CS` or `OB` (rules R68, R231). -/
theorem writes_of_err_ne_zero {e : Ending} (h : e.err ≠ 0#3) :
    e.writes.ob = none ∧ e.writes.cs = none ∧ e.writes.crc = none := by
  cases e with
  | done f u => exact absurd rfl h
  | error k r => cases r <;> exact ⟨rfl, rfl, rfl⟩
  | refused r => exact ⟨rfl, rfl, rfl⟩

end Ending

/-- `Ends s i e`: run on `s`, the command `i` ends in the way `e`. -/
inductive Ends (s : State) : Instr → Ending → Prop where
  | nop (a : Word) : Ends s (.nop a) (.done false {})
  | crcClr (a : Word) : Ends s (.crcClr a) (.done false { crc := some crcInit })
  | crcUpd (a : Word) :
      Ends s (.crcUpd a) (.done false { crc := some (crcRaw s.crc (span s)), cur := some s.ib.length })
  | tcParse (a : Word) {t : TypeCode} (hl : 4 ≤ (span s).length) (ht : typeOfBytes ((span s).take 4) = some t) :
      Ends s (.tcParse a) (.done false { t := some (some t), cur := some (s.cur + 4) })
  | tcParseBad (a : Word) (hl : 4 ≤ (span s).length) (ht : typeOfBytes ((span s).take 4) = none) :
      Ends s (.tcParse a) (.error .invalidTypeCode .typeReg)
  | tcParseShort (a : Word) (hl : (span s).length < 4) : Ends s (.tcParse a) (.refused .precondition)
  | tcParses (a : Word) {t : TypeCode} (ht : typeOfBytes (span s) = some t) :
      Ends s (.tcParses a) (.done false { t := some (some t), cur := some s.ib.length })
  | tcParsesBad (a : Word) (ht : typeOfBytes (span s) = none) :
      Ends s (.tcParses a) (.error .invalidTypeCode .typeReg)
  | chNew (a : Word) {t : TypeCode} (ht : s.t = some t) (hl : (span s).length ≤ 2 ^ 32 - 1)
      (hc : (span s).length ≤ s.cfg.capData) :
      Ends s (.chNew a) (.done false { w := some (some (mkChunk t (span s))), cur := some s.ib.length })
  | chNewNone (a : Word) (ht : s.t = none ∨ 2 ^ 32 - 1 < (span s).length) : Ends s (.chNew a) (.refused .precondition)
  | chNewCap (a : Word) {t : TypeCode} (ht : s.t = some t) (hl : (span s).length ≤ 2 ^ 32 - 1)
      (hc : s.cfg.capData < (span s).length) : Ends s (.chNew a) (.refused .capacity)
  | chParse (a : Word) {c : Chunk} {n : Nat} (hp : parseChunk (span s) = .ok (c, n))
      (hc : c.data.length ≤ s.cfg.capData) :
      Ends s (.chParse a) (.done false { w := some (some c), cur := some (s.cur + n) })
  | chParseBad (a : Word) {k : ErrorKind} (hp : parseChunk (span s) = .error k) : Ends s (.chParse a) (.error k .workReg)
  | chParseCap (a : Word) {c : Chunk} {n : Nat} (hp : parseChunk (span s) = .ok (c, n))
      (hc : s.cfg.capData < c.data.length) : Ends s (.chParse a) (.refused .capacity)
  | chSer (a : Word) {c : Chunk} (hw : s.w = some c) (hc : exceeds (12 + c.data.length) s.cfg.capBuf = false) :
      Ends s (.chSer a) (.done false { ob := some (frame c) })
  | chSerEmpty (a : Word) (hw : s.w = none) : Ends s (.chSer a) (.refused .precondition)
  | chSerCap (a : Word) {c : Chunk} (hw : s.w = some c) (hc : exceeds (12 + c.data.length) s.cfg.capBuf = true) :
      Ends s (.chSer a) (.refused .capacity)
  | ctParse (a : Word) {l : List Chunk} (hp : parseContainer (span s) = .ok l) (hc : storeOverflow s.cfg l = false) :
      Ends s (.ctParse a) (.done false { cs := some l, cur := some s.ib.length })
  | ctParseBad (a : Word) {k : ErrorKind} (hp : parseContainer (span s) = .error k) :
      Ends s (.ctParse a) (.error k .store)
  | ctParseCap (a : Word) {l : List Chunk} (hp : parseContainer (span s) = .ok l) (hc : storeOverflow s.cfg l = true) :
      Ends s (.ctParse a) (.refused .capacity)
  | ctAppend (a : Word) {c : Chunk} (hw : s.w = some c) (hn : exceeds (s.cs.length + 1) s.cfg.capChunks = false)
      (hd : exceeds (totalData s.cs + c.data.length) s.cfg.capStore = false) :
      Ends s (.ctAppend a) (.done false { cs := some (s.cs ++ [c]) })
  | ctAppendEmpty (a : Word) (hw : s.w = none) : Ends s (.ctAppend a) (.refused .precondition)
  | ctAppendCap (a : Word) {c : Chunk} (hw : s.w = some c)
      (hc : exceeds (s.cs.length + 1) s.cfg.capChunks = true ∨
        exceeds (totalData s.cs + c.data.length) s.cfg.capStore = true) : Ends s (.ctAppend a) (.refused .capacity)
  | ctFind (a : Word) {j : Nat} {c : Chunk} (hf : findFirst s.cs (span s) = some (j, c)) :
      Ends s (.ctFind a) (.done true { w := some (some c), cur := some s.ib.length })
  | ctFindAbsent (a : Word) (hf : findFirst s.cs (span s) = none) :
      Ends s (.ctFind a) (.done false { w := some none, cur := some s.ib.length })
  | ctRemove (a : Word) {j : Nat} {c : Chunk} (hf : findFirst s.cs (span s) = some (j, c)) :
      Ends s (.ctRemove a)
        (.done true { w := some (some c), cs := some (s.cs.eraseIdx j), cur := some s.ib.length })
  | ctRemoveAbsent (a : Word) (hf : findFirst s.cs (span s) = none) : Ends s (.ctRemove a) (.error .notFound .workReg)
  | ctGet (a : Word) {c : Chunk} (hg : s.cs[a.toNat]? = some c) :
      Ends s (.ctGet a) (.done false { w := some (some c) })
  | ctGetPast (a : Word) (hg : s.cs[a.toNat]? = none) : Ends s (.ctGet a) (.refused .precondition)
  | ctSer (a : Word) (hc : exceeds (serContainer s.cs).length s.cfg.capBuf = false) :
      Ends s (.ctSer a) (.done false { ob := some (serContainer s.cs) })
  | ctSerCap (a : Word) (hc : exceeds (serContainer s.cs).length s.cfg.capBuf = true) :
      Ends s (.ctSer a) (.refused .capacity)
  | reservedE (a : Word) : Ends s (.reservedE a) (.refused .opcode)
  | reservedF (a : Word) : Ends s (.reservedF a) (.refused .opcode)

/-- `s'` holds what `s` holds wherever the table of rule R37 lets the command read; the parameters are no state (rule R40). -/
structure SameReads (i : Instr) (s s' : State) : Prop where
  cfg : s'.cfg = s.cfg
  crc : opcodeOf i = 0x2#4 → s'.crc = s.crc
  t : opcodeOf i = 0x5#4 → s'.t = s.t
  w : opcodeOf i ∈ [0x7#4, 0x9#4] → s'.w = s.w
  cs : opcodeOf i ∈ [0x9#4, 0xA#4, 0xB#4, 0xC#4, 0xD#4] → s'.cs = s.cs
  ib : opcodeOf i ∈ [0x2#4, 0x3#4, 0x4#4, 0x5#4, 0x6#4, 0x8#4, 0xA#4, 0xB#4] → s'.ib = s.ib
  cur : opcodeOf i ∈ [0x2#4, 0x3#4, 0x4#4, 0x5#4, 0x6#4, 0x8#4, 0xA#4, 0xB#4] → s'.cur = s.cur

theorem SameReads.refl (i : Instr) (s : State) : SameReads i s s :=
  ⟨rfl, fun _ => rfl, fun _ => rfl, fun _ => rfl, fun _ => rfl, fun _ => rfl, fun _ => rfl⟩

/-- The way a command ends, with every value it writes, depends only on what it reads: with the pieces that the case reads
put in place, the same guards hold, read by read. -/
theorem Ends.of_sameReads {i : Instr} {s s' : State} {e : Ending} (h : Ends s i e) (hr : SameReads i s s') :
    Ends s' i e := by
  obtain ⟨hcfg, hcrc, ht, hw, hcs, hib, hcur⟩ := hr
  cases s'
  cases h
  all_goals
    -- for the case's opcode, the columns of the table that it reads become equations and the others vanish
    simp [opcodeOf] at hcfg hcrc ht hw hcs hib hcur
    subst_vars
    constructor <;> assumption

/-- The next state of a command, by the way it ends. -/
theorem Ends.exec_eq {i : Instr} {s : State} {e : Ending} (h : Ends s i e) :
    exec i s = .next (e.state s) := by
  cases h with
  | nop a => rfl
  | crcClr a => rfl
  | crcUpd a => rfl
  | tcParse a hl ht => exact (execTcParse_eq s).trans (by rw [if_neg (Nat.not_lt.2 hl), ht]; rfl)
  | tcParseBad a hl ht => exact (execTcParse_eq s).trans (by rw [if_neg (Nat.not_lt.2 hl), ht]; rfl)
  | tcParseShort a hl => exact (execTcParse_eq s).trans (if_pos hl)
  | tcParses a ht => exact execTcParses_some ht
  | tcParsesBad a ht => exact execTcParses_none ht
  | chNew a ht hl hc => exact (execChNew_some ht).trans (by rw [if_neg (Nat.not_lt.2 hl), if_neg (Nat.not_lt.2 hc)]; rfl)
  | chNewNone a h =>
    cases ht : s.t with
    | none => exact execChNew_none ht
    | some t => exact (execChNew_some ht).trans (if_pos (h.resolve_left (by simp [ht])))
  | chNewCap a ht hl hc => exact (execChNew_some ht).trans (by rw [if_neg (Nat.not_lt.2 hl), if_pos hc]; rfl)
  | chParse a hp hc => exact (execChParse_ok hp).trans (if_neg (Nat.not_lt.2 hc))
  | chParseBad a hp => exact execChParse_error hp
  | chParseCap a hp hc => exact (execChParse_ok hp).trans (if_pos hc)
  | chSer a hw hc => exact (execChSer_some hw).trans (if_neg (by simp [hc]))
  | chSerEmpty a hw => exact execChSer_none hw
  | chSerCap a hw hc => exact (execChSer_some hw).trans (if_pos hc)
  | ctParse a hp hc => exact (execCtParse_ok hp).trans (if_neg (by simp [hc]))
  | ctParseBad a hp => exact execCtParse_error hp
  | ctParseCap a hp hc => exact (execCtParse_ok hp).trans (if_pos hc)
  | ctAppend a hw hn hd => exact (execCtAppend_some hw).trans (if_neg (by simp [hn, hd]))
  | ctAppendEmpty a hw => exact execCtAppend_none hw
  | ctAppendCap a hw hc => exact (execCtAppend_some hw).trans (if_pos (by simpa using hc))
  | ctFind a hf => exact execCtFind_some hf
  | ctFindAbsent a hf => exact execCtFind_none hf
  | ctRemove a hf => exact execCtRemove_some hf
  | ctRemoveAbsent a hf => exact execCtRemove_none hf
  | ctGet a hg => exact execCtGet_some hg
  | ctGetPast a hg => exact execCtGet_none hg
  | ctSer a hc => exact if_neg (by simp [hc])
  | ctSerCap a hc => exact if_pos hc
  | reservedE a => rfl
  | reservedF a => rfl

/-- Some guard holds: every command ends, in every state (rules R210, R217). -/
theorem ends_total (i : Instr) (s : State) : ∃ e, Ends s i e := by
  cases i with
  | nop a => exact ⟨_, .nop a⟩
  | crcClr a => exact ⟨_, .crcClr a⟩
  | crcUpd a => exact ⟨_, .crcUpd a⟩
  | tcParse a =>
    rcases Nat.lt_or_ge (span s).length 4 with hl | hl
    · exact ⟨_, .tcParseShort a hl⟩
    · cases ht : typeOfBytes ((span s).take 4) with
      | none => exact ⟨_, .tcParseBad a hl ht⟩
      | some t => exact ⟨_, .tcParse a hl ht⟩
  | tcParses a =>
    cases ht : typeOfBytes (span s) with
    | none => exact ⟨_, .tcParsesBad a ht⟩
    | some t => exact ⟨_, .tcParses a ht⟩
  | chNew a =>
    cases ht : s.t with
    | none => exact ⟨_, .chNewNone a (.inl ht)⟩
    | some t =>
      rcases Nat.lt_or_ge (2 ^ 32 - 1) (span s).length with hl | hl
      · exact ⟨_, .chNewNone a (.inr hl)⟩
      · rcases Nat.lt_or_ge s.cfg.capData (span s).length with hc | hc
        · exact ⟨_, .chNewCap a ht hl hc⟩
        · exact ⟨_, .chNew a ht hl hc⟩
  | chParse a =>
    cases hp : parseChunk (span s) with
    | error k => exact ⟨_, .chParseBad a hp⟩
    | ok r =>
      rcases Nat.lt_or_ge s.cfg.capData r.1.data.length with hc | hc
      · exact ⟨_, .chParseCap a hp hc⟩
      · exact ⟨_, .chParse a hp hc⟩
  | chSer a =>
    cases hw : s.w with
    | none => exact ⟨_, .chSerEmpty a hw⟩
    | some c =>
      cases hc : exceeds (12 + c.data.length) s.cfg.capBuf with
      | true => exact ⟨_, .chSerCap a hw hc⟩
      | false => exact ⟨_, .chSer a hw hc⟩
  | ctParse a =>
    cases hp : parseContainer (span s) with
    | error k => exact ⟨_, .ctParseBad a hp⟩
    | ok l =>
      cases hc : storeOverflow s.cfg l with
      | true => exact ⟨_, .ctParseCap a hp hc⟩
      | false => exact ⟨_, .ctParse a hp hc⟩
  | ctAppend a =>
    cases hw : s.w with
    | none => exact ⟨_, .ctAppendEmpty a hw⟩
    | some c =>
      cases hn : exceeds (s.cs.length + 1) s.cfg.capChunks with
      | true => exact ⟨_, .ctAppendCap a hw (.inl hn)⟩
      | false =>
        cases hd : exceeds (totalData s.cs + c.data.length) s.cfg.capStore with
        | true => exact ⟨_, .ctAppendCap a hw (.inr hd)⟩
        | false => exact ⟨_, .ctAppend a hw hn hd⟩
  | ctFind a =>
    cases hf : findFirst s.cs (span s) with
    | none => exact ⟨_, .ctFindAbsent a hf⟩
    | some r => exact ⟨_, .ctFind a hf⟩
  | ctRemove a =>
    cases hf : findFirst s.cs (span s) with
    | none => exact ⟨_, .ctRemoveAbsent a hf⟩
    | some r => exact ⟨_, .ctRemove a hf⟩
  | ctGet a =>
    cases hg : s.cs[a.toNat]? with
    | none => exact ⟨_, .ctGetPast a hg⟩
    | some c => exact ⟨_, .ctGet a hg⟩
  | ctSer a =>
    cases hc : exceeds (serContainer s.cs).length s.cfg.capBuf with
    | true => exact ⟨_, .ctSerCap a hc⟩
    | false => exact ⟨_, .ctSer a hc⟩
  | reservedE a => exact ⟨_, .reservedE a⟩
  | reservedF a => exact ⟨_, .reservedF a⟩

/-- Inversion: a next state of a command is the one of some way it ends. -/
theorem ends_of_exec {i : Instr} {s t : State} (h : exec i s = .next t) : ∃ e, Ends s i e ∧ t = e.state s := by
  obtain ⟨e, he⟩ := ends_total i s
  exact ⟨e, he, by rw [he.exec_eq] at h; cases h; rfl⟩

end Sys2Proof.Machine
end

section
/-! The state invariants of spec/10_state.md rule R43: one rule per update of the state, then every way a command ends, then
every action of the host. -/

namespace Sys2Proof.Machine

/-! ### The invariants item by item -/

theorem State.inv_iff {s : State} :
    s.Inv ↔ s.cfg.wf = true ∧ s.t.all typeValid = true ∧ s.w.all (chunkOk s.cfg) = true ∧ storeOk s = true ∧
      Memory.wf s = true ∧ responseOk s = true := by
  simp only [State.Inv, State.inv, Bool.and_eq_true, and_assoc]

theorem chunkOk_iff {cfg : Config} {c : Chunk} :
    chunkOk cfg c = true ↔
      typeValid c.type = true ∧ c.crc = crc32 (typeBytes c.type ++ c.data) ∧ c.data.length ≤ 2 ^ 32 - 1 ∧
      c.data.length ≤ cfg.capData := by
  simp only [chunkOk, Bool.and_eq_true, beq_iff_eq, decide_eq_true_eq, and_assoc]

theorem storeOk_iff {s : State} :
    storeOk s = true ↔
      (∀ c ∈ s.cs, chunkOk s.cfg c = true) ∧ exceeds s.cs.length s.cfg.capChunks = false ∧
      exceeds (totalData s.cs) s.cfg.capStore = false := by
  simp only [storeOk, Bool.and_eq_true, Bool.not_eq_true', List.all_eq_true, and_assoc]

theorem responseOk_iff {s : State} :
    responseOk s = true ↔ (s.err = errRefused ↔ s.rsn ≠ 0#2) ∧ (s.found = true → s.err = 0#3) := by
  simp only [responseOk, Bool.and_eq_true, beq_iff_eq, decide_eq_decide, Bool.or_eq_true, Bool.not_eq_true', decide_eq_true_eq,
    ← Bool.not_eq_true, imp_iff_not_or]

/-- Nothing fits every capacity. -/
@[simp] theorem exceeds_zero (c : Cap) : exceeds 0 c = false := by
  cases c with
  | finite n => simp
  | unbounded => rfl

/-! ### One rule per update -/

section Updates

variable {s : State}

theorem inv_resetWith {c : Config} (hc : c.wf = true) : (State.resetWith c).Inv :=
  State.inv_iff.2 ⟨hc, rfl, rfl, storeOk_iff.2 ⟨fun _ hm => absurd hm List.not_mem_nil, exceeds_zero _, exceeds_zero _⟩,
    (Memory.wf_iff _).2 ⟨exceeds_zero _, exceeds_zero _, Nat.le_refl 0⟩, rfl⟩

theorem inv_setCrc (h : s.Inv) (v : Word) : (setCrc v s).Inv := h

theorem inv_setPending (h : s.Inv) (l : List HostAction) : (setPending l s).Inv := h

theorem inv_setT (h : s.Inv) (v : Option TypeCode) (hv : v.all typeValid = true) : (setT v s).Inv := by
  obtain ⟨hcfg, -, hw, hcs, hm, hr⟩ := State.inv_iff.1 h
  exact State.inv_iff.2 ⟨hcfg, hv, hw, hcs, hm, hr⟩

theorem inv_setW (h : s.Inv) (v : Option Chunk) (hv : v.all (chunkOk s.cfg) = true) : (setW v s).Inv := by
  obtain ⟨hcfg, ht, -, hcs, hm, hr⟩ := State.inv_iff.1 h
  exact State.inv_iff.2 ⟨hcfg, ht, hv, hcs, hm, hr⟩

theorem inv_setCs (h : s.Inv) (l : List Chunk) (hl : ∀ c ∈ l, chunkOk s.cfg c = true)
    (hn : exceeds l.length s.cfg.capChunks = false) (hd : exceeds (totalData l) s.cfg.capStore = false) :
    (setCs l s).Inv := by
  obtain ⟨hcfg, ht, hw, -, hm, hr⟩ := State.inv_iff.1 h
  exact State.inv_iff.2 ⟨hcfg, ht, hw, storeOk_iff.2 ⟨hl, hn, hd⟩, hm, hr⟩

/-- An update of the buffers or the cursor alone keeps the invariants when it keeps the buffers' form. -/
theorem inv_of_memory {b o : List Byte} {c : Nat} (h : s.Inv)
    (hm : Memory.wf { s with ib := b, cur := c, ob := o } = true) : State.Inv { s with ib := b, cur := c, ob := o } := by
  obtain ⟨hcfg, ht, hw, hcs, -, hr⟩ := State.inv_iff.1 h
  exact State.inv_iff.2 ⟨hcfg, ht, hw, hcs, hm, hr⟩

theorem State.Inv.memory (h : s.Inv) : Memory.wf s = true := (State.inv_iff.1 h).2.2.2.2.1

theorem inv_setCur {n : Nat} (h : s.Inv) (hn : n ≤ s.ib.length) : (setCur n s).Inv :=
  inv_of_memory h (Memory.wf_setCur h.memory hn)

theorem inv_consumeSpan (h : s.Inv) : (consumeSpan s).Inv := inv_setCur h (Nat.le_refl _)

theorem inv_setInput {b : List Byte} (h : s.Inv) (hb : exceeds b.length s.cfg.capBuf = false) :
    (setInput b 0 s).Inv := inv_of_memory h (Memory.wf_setInput h.memory hb)

theorem inv_memWrite (h : s.Inv) (v : List Byte) (hv : exceeds v.length s.cfg.capBuf = false) : (memWrite v s).Inv :=
  inv_of_memory h (Memory.wf_memWrite h.memory hv)

/-- Rule R43 item 5: the response fields of a command that ends, whichever way. -/
theorem inv_setResponse (h : s.Inv) (e : Ending) : (setResponse e.err e.rsn e.found s).Inv := by
  obtain ⟨hcfg, ht, hw, hcs, hm, -⟩ := State.inv_iff.1 h
  exact State.inv_iff.2 ⟨hcfg, ht, hw, hcs, hm, responseOk_iff.2 ⟨e.err_eq_refused_iff, Ending.err_of_found⟩⟩

end Updates

/-! ### The chunks a command makes, reads and moves -/

theorem chunkOk_mkChunk {cfg : Config} {t : TypeCode} {d : List Byte} (ht : typeValid t = true)
    (hl : d.length ≤ 2 ^ 32 - 1) (hc : d.length ≤ cfg.capData) : chunkOk cfg (mkChunk t d) = true :=
  chunkOk_iff.2 ⟨ht, rfl, hl, hc⟩

/-- Rule R28 of a parsed chunk that fits `CAP_DATA`: the parse has checked the rest. -/
theorem chunkOk_of_parseChunk {cfg : Config} {b : List Byte} {c : Chunk} {n : Nat} (hp : parseChunk b = .ok (c, n))
    (hc : c.data.length ≤ cfg.capData) : chunkOk cfg c = true := by
  obtain ⟨-, -, -, -, hv, -, -, hcrc⟩ := parseChunk_ok hp
  exact chunkOk_iff.2 ⟨hv, hcrc, parseChunk_data_le hp, hc⟩

/-- Every chunk of a parsed list came out of `parse_chunk` (rule R181 step 2). -/
theorem parseChunk_of_mem_parseFramesFuel {f : Nat} {b : List Byte} {l : List Chunk} (h : parseFramesFuel f b = .ok l)
    {c : Chunk} (hc : c ∈ l) : ∃ b' n, parseChunk b' = .ok (c, n) := by
  induction f generalizing b l with
  | zero =>
    cases b with
    | nil => cases h; cases hc
    | cons x xs => cases h
  | succ f ih =>
    cases b with
    | nil => cases h; cases hc
    | cons x xs =>
      rw [parseFramesFuel] at h
      split at h
      · cases h
      · next d n hd =>
        split at h
        · cases h
        · next m hm =>
          cases h
          rcases List.mem_cons.1 hc with rfl | hc
          · exact ⟨_, n, hd⟩
          · exact ih hm hc

/-- What fits the store: the three tests of rule R182. -/
theorem storeOverflow_eq_false {cfg : Config} {l : List Chunk} :
    storeOverflow cfg l = false ↔
      exceeds l.length cfg.capChunks = false ∧ (∀ c ∈ l, c.data.length ≤ cfg.capData) ∧
      exceeds (totalData l) cfg.capStore = false := by
  simp only [storeOverflow, Bool.or_eq_false_iff, List.any_eq_false, decide_eq_true_eq, not_lt, and_assoc]

theorem chunkOk_of_parseContainer {cfg : Config} {b : List Byte} {l : List Chunk} (hp : parseContainer b = .ok l)
    (ho : storeOverflow cfg l = false) {c : Chunk} (hc : c ∈ l) : chunkOk cfg c = true := by
  obtain ⟨-, -, hf⟩ := parseContainer_ok hp
  obtain ⟨-, hd, -⟩ := storeOverflow_eq_false.1 ho
  obtain ⟨b', n, hb⟩ := parseChunk_of_mem_parseFramesFuel hf hc
  exact chunkOk_of_parseChunk hb (hd c hc)

/-- A list with chunks taken out holds no more data. -/
theorem totalData_le_of_sublist {l m : List Chunk} (h : l.Sublist m) : totalData l ≤ totalData m :=
  (h.map _).sum_le_sum fun _ _ => Nat.zero_le _

/-- Taking a chunk out of a store that fits leaves a store that fits (rule R192). -/
theorem inv_setCs_eraseIdx {s : State} (h : s.Inv) (j : Nat) : (setCs (s.cs.eraseIdx j) s).Inv := by
  obtain ⟨-, -, -, hcs, -, -⟩ := State.inv_iff.1 h
  obtain ⟨hok, hn, hd⟩ := storeOk_iff.1 hcs
  have hsub := List.eraseIdx_sublist s.cs j
  exact inv_setCs h _ (fun c hc => hok c (hsub.subset hc)) (exceeds_mono hsub.length_le hn)
    (exceeds_mono (totalData_le_of_sublist hsub) hd)

/-! ### Every command -/

theorem cur_add_le {s : State} {n : Nat} (h0 : 0 < n) (h : n ≤ (span s).length) : s.cur + n ≤ s.ib.length := by
  simp [span] at h; omega

/-- The pieces of state that a command writes meet the invariants. -/
theorem Ends.inv_writes {i : Instr} {s : State} {e : Ending} (h : Ends s i e) (hs : s.Inv) : (e.writes.apply s).Inv := by
  obtain ⟨-, htv, hwok, hcs, -, -⟩ := State.inv_iff.1 hs
  obtain ⟨hok, -, -⟩ := storeOk_iff.1 hcs
  cases e with
  | refused r => exact hs
  | error k r =>
    cases r with
    | typeReg => exact inv_setT hs none rfl
    | workReg => exact inv_setW hs none rfl
    | store => exact hs
  | done f u =>
    cases h with
    | nop a => exact hs
    | crcClr a => exact inv_setCrc hs crcInit
    | crcUpd a => exact inv_consumeSpan (inv_setCrc hs _)
    | tcParse a hl ht => exact inv_setCur (inv_setT hs (some _) (typeOfBytes_eq_some.1 ht).2) (cur_add_le (by decide) hl)
    | tcParses a ht => exact inv_consumeSpan (inv_setT hs (some _) (typeOfBytes_eq_some.1 ht).2)
    | chNew a ht hl hc => exact inv_consumeSpan (inv_setW hs (some _) (chunkOk_mkChunk (by simpa [ht] using htv) hl hc))
    | chParse a hp hc =>
      obtain ⟨h12, hn, -⟩ := parseChunk_ok hp
      exact inv_setCur (inv_setW hs (some _) (chunkOk_of_parseChunk hp hc)) (cur_add_le (by omega) hn)
    | chSer a hw hc => exact inv_memWrite hs (frame _) (by rwa [frame_length])
    | @ctParse a l hp hc =>
      obtain ⟨hn, -, hd⟩ := storeOverflow_eq_false.1 hc
      exact inv_consumeSpan (inv_setCs hs l (fun c => chunkOk_of_parseContainer hp hc) hn hd)
    | @ctAppend a c hw hn hd =>
      refine inv_setCs hs (s.cs ++ [c]) (fun d hd => ?_) (by simpa using hn) (by simpa using hd)
      rcases List.mem_append.1 hd with hd | hd
      · exact hok d hd
      · rw [List.mem_singleton.1 hd]; simpa [hw] using hwok
    | ctFind a hf => exact inv_consumeSpan (inv_setW hs (some _) (hok _ (findFirst_mem hf)))
    | ctFindAbsent a hf => exact inv_consumeSpan (inv_setW hs none rfl)
    | ctRemove a hf =>
      exact inv_consumeSpan (inv_setCs_eraseIdx (inv_setW hs (some _) (hok _ (findFirst_mem hf))) _)
    | ctGet a hg => exact inv_setW hs (some _) (hok _ (List.mem_of_getElem? hg))
    | ctSer a hc => exact inv_memWrite hs _ hc

theorem exec_keeps_inv {i : Instr} {s t : State} (hs : s.Inv) (h : exec i s = .next t) : t.Inv := by
  obtain ⟨e, he, rfl⟩ := ends_of_exec h
  exact inv_setResponse (he.inv_writes hs) e

/-- Settles O7: each of the host's actions, and each way a command ends, keeps the invariants. -/
theorem everyStepKeepsTheInvariant : Obligations.EveryStepKeepsTheInvariant := by
  intro s t hs h
  rcases step_cases h with ⟨-, rfl⟩ | ⟨w, rest, -, hx⟩ | ⟨b, rest, -, hb, rfl⟩ | ⟨p, rest, -, rfl⟩ | ⟨rest, -, rfl⟩
  · exact hs
  · exact exec_keeps_inv (inv_setPending hs rest) hx
  · exact inv_setInput (inv_setPending hs rest) hb
  · exact inv_setPending hs rest
  · exact inv_setPending (inv_resetWith (State.inv_iff.1 hs).1) rest

/-- Settles O6: the empty buffers and store fit whatever the capacities are. -/
theorem resetMeetsTheInvariant : Obligations.ResetMeetsTheInvariant :=
  ⟨inv_resetWith (by decide), fun _ hc => inv_resetWith hc⟩

end Sys2Proof.Machine
end

section
/-! Who writes and who reads what (spec/10_state.md rule R37): the two sides of the table, from the ways a command ends. -/

namespace Sys2Proof.Machine

/-- The `-` and `r` cells of the table: outside the listed commands the piece of state is not written. -/
theorem Ends.writes_table {i : Instr} {s : State} {e : Ending} (h : Ends s i e) :
    (opcodeOf i ∉ [0x1#4, 0x2#4] → e.writes.crc = none) ∧
    (opcodeOf i ∉ [0x3#4, 0x4#4] → e.writes.t = none) ∧
    (opcodeOf i ∉ [0x5#4, 0x6#4, 0xA#4, 0xB#4, 0xC#4] → e.writes.w = none) ∧
    (opcodeOf i ∉ [0x8#4, 0x9#4, 0xB#4] → e.writes.cs = none) ∧
    (opcodeOf i ∉ [0x2#4, 0x3#4, 0x4#4, 0x5#4, 0x6#4, 0x8#4, 0xA#4, 0xB#4] → e.writes.cur = none) ∧
    (opcodeOf i ∉ [0x7#4, 0xD#4] → e.writes.ob = none) := by
  cases h <;> simp [opcodeOf, Ending.writes]

/-- Settles O59: a piece of state that is not written reads as before. -/
theorem commandsWriteOnlyWhatTheTableSays : Obligations.CommandsWriteOnlyWhatTheTableSays := by
  intro i s t h
  obtain ⟨e, he, rfl⟩ := ends_of_exec h
  obtain ⟨hcrc, ht, hw, hcs, hcur, hob⟩ := he.writes_table
  refine ⟨fun hi => ?_, fun hi => ?_, fun hi => ?_, fun hi => ?_, fun hi => ?_, fun hi => ?_, fun herr => ?_, rfl, rfl, rfl⟩
  · simp [hcrc hi]
  · simp [ht hi]
  · simp [hw hi]
  · simp [hcs hi]
  · simp [hcur hi]
  · simp [outByte, hob hi]
  · obtain ⟨hob, hcs, hcrc⟩ := Ending.writes_of_err_ne_zero herr
    simp [hob, hcs, hcrc]

/-- Two states that agree on what a command reads: a view of the next state that sees only what was written, or the same in
both, is the same. -/
theorem mapNext_exec_of_sameReads {i : Instr} {s s' : State} {m : State → State} (hr : SameReads i s s')
    (hm : ∀ e : Ending, m (e.state s') = m (e.state s)) : mapNext m (exec i s') = mapNext m (exec i s) := by
  obtain ⟨e, he⟩ := ends_total i s
  rw [he.exec_eq, (he.of_sameReads hr).exec_eq, mapNext_next, mapNext_next, hm]

/-- Settles O60: for each piece of state, the state with that piece replaced agrees on what the command reads, and the next
states agree outside the piece. -/
theorem commandsReadOnlyWhatTheTableSays : Obligations.CommandsReadOnlyWhatTheTableSays := by
  intro i s
  refine ⟨fun v x hi => ?_, fun v x hi => ?_, fun v x hi => ?_, fun v x hi => ?_, fun b c y z hi => ?_,
    fun v x => ?_, fun v x => ?_⟩
  · exact mapNext_exec_of_sameReads { SameReads.refl i s with crc := fun h => absurd h hi } fun _ => rfl
  · exact mapNext_exec_of_sameReads { SameReads.refl i s with t := fun h => absurd h hi } fun _ => rfl
  · exact mapNext_exec_of_sameReads { SameReads.refl i s with w := fun h => absurd h hi } fun _ => rfl
  · exact mapNext_exec_of_sameReads { SameReads.refl i s with cs := fun h => absurd h hi } fun _ => rfl
  · exact mapNext_exec_of_sameReads
      { SameReads.refl i s with ib := fun h => absurd h hi, cur := fun h => absurd h hi } fun _ => rfl
  · exact mapNext_exec_of_sameReads { SameReads.refl i s with } fun _ => rfl
  · exact mapNext_exec_of_sameReads { SameReads.refl i s with } fun _ => rfl

end Sys2Proof.Machine
end

section
/-! `STATUS`, the type views and the register numbers (spec/10_state.md rules R24, R25, R27, R36, R38). -/

namespace Sys2Proof.Machine

open Sys2Proof.Statements (FirstMatch)

/-! ### The response fields -/

theorem firstMatch_nil (b : List Byte) (j : Nat) (c : Chunk) : ¬ FirstMatch [] b j c := fun h => nomatch h.1

theorem firstMatch_cons_zero (d : Chunk) (l : List Chunk) (b : List Byte) (c : Chunk) :
    FirstMatch (d :: l) b 0 c ↔ d = c ∧ typeBytes c.type = b := by
  simp [FirstMatch]

theorem firstMatch_cons_succ (d : Chunk) (l : List Chunk) (b : List Byte) (j : Nat) (c : Chunk) :
    FirstMatch (d :: l) b (j + 1) c ↔ typeBytes d.type ≠ b ∧ FirstMatch l b j c := by
  constructor
  · rintro ⟨hj, hc, hlt⟩
    exact ⟨hlt 0 d (Nat.succ_pos j) rfl, hj, hc, fun k x hk hx => hlt (k + 1) x (Nat.succ_lt_succ hk) hx⟩
  · rintro ⟨hd, hj, hc, hlt⟩
    refine ⟨hj, hc, fun k x hk hx => ?_⟩
    cases k with
    | zero => cases hx; exact hd
    | succ k => exact hlt k x (Nat.lt_of_succ_lt_succ hk) hx

theorem findFirst_cons (d : Chunk) (l : List Chunk) (b : List Byte) :
    findFirst (d :: l) b =
      if typeBytes d.type = b then some (0, d) else (findFirst l b).map fun r => (r.1 + 1, r.2) := by
  rw [findFirst]; cases findFirst l b <;> rfl

/-- Rule R188: the lookup answers the first match. -/
theorem findFirst_eq_some_iff {l : List Chunk} {b : List Byte} {j : Nat} {c : Chunk} :
    findFirst l b = some (j, c) ↔ FirstMatch l b j c := by
  induction l generalizing j with
  | nil => simp [findFirst, firstMatch_nil]
  | cons d l ih =>
    rw [findFirst_cons]
    split
    · next hd =>
      cases j with
      | zero => simpa [firstMatch_cons_zero] using fun h : d = c => h ▸ hd
      | succ j => simp [firstMatch_cons_succ, hd]
    · next hd =>
      cases j with
      | zero => simpa [firstMatch_cons_zero] using fun h : d = c => h ▸ hd
      | succ j => simp [firstMatch_cons_succ, hd, ← ih]

theorem exists_firstMatch_iff {l : List Chunk} {b : List Byte} :
    (∃ j c, FirstMatch l b j c) ↔ (findFirst l b).isSome = true := by
  simp only [← findFirst_eq_some_iff, Option.isSome_iff_exists, Prod.exists]

/-- Rule R36: `FOUND` is 1 exactly after a lookup command that found. -/
theorem Ends.found_iff {i : Instr} {s : State} {e : Ending} (h : Ends s i e) :
    e.found = true ↔ (opcodeOf i = 0xA#4 ∨ opcodeOf i = 0xB#4) ∧ ∃ j c, FirstMatch s.cs (span s) j c := by
  rw [exists_firstMatch_iff]
  cases h <;> simp [Ending.found, opcodeOf, *]

/-- Rule R36: no command reads the response fields, and every command writes all three. -/
theorem exec_response_ignored (i : Instr) (s : State) (e : BitVec 3) (r : BitVec 2) (f : Bool) :
    exec i { s with err := e, rsn := r, found := f } = exec i s := by
  obtain ⟨x, hx⟩ := ends_total i s
  have hx' : Ends { s with err := e, rsn := r, found := f } i x := hx.of_sameReads { SameReads.refl i s with }
  rw [hx.exec_eq, hx'.exec_eq]
  rfl

/-- The fields of `STATUS`, packed one after another, each read back from its bits (rule R36). -/
theorem packed_fields {busy wv tv found : Bool} {prop : BitVec 4} {rsn : BitVec 2} {err : BitVec 3}
    {x : BitVec (19 + 1 + 4 + 1 + 1 + 1 + 2 + 3)}
    (h : x = 0#19 ++ BitVec.ofBool busy ++ prop ++ BitVec.ofBool wv ++ BitVec.ofBool tv ++ BitVec.ofBool found ++ rsn ++ err) :
    x.extractLsb' 0 3 = err ∧ x.extractLsb' 3 2 = rsn ∧ x.getLsbD 5 = found ∧ x.getLsbD 6 = tv ∧ x.getLsbD 7 = wv ∧
    x.extractLsb' 8 4 = prop ∧ x.getLsbD 12 = busy ∧ x.extractLsb' 13 19 = 0#19 := by
  subst h
  simp only [BitVec.extractLsb'_append_eq_of_le, BitVec.extractLsb'_append_eq_right,
    BitVec.getLsbD_append, Nat.reduceLeDiff, Nat.reduceSub, Nat.reduceLT]
  simp

/-- Settles O37: the layout from the packing of the fields, the rest from the way the command ends. -/
theorem statusFieldsAndTheirUse : Obligations.StatusFieldsAndTheirUse := by
  refine ⟨fun s => packed_fields rfl, exec_response_ignored, fun i s t h => ?_⟩
  obtain ⟨e, he, rfl⟩ := ends_of_exec h
  have hrsn := e.err_eq_refused_iff
  exact ⟨fun h7 => not_not.1 (mt hrsn.2 h7), hrsn.1, he.found_iff⟩

/-! ### The views of `T` -/

/-- Rule R24: `TCODE` is the code's big-endian number, so its bytes are the code's. -/
theorem tcode_bytes {s : State} {t : TypeCode} (h : s.t = some t) :
    (tcode s).extractLsb' 24 8 = t.b0 ∧ (tcode s).extractLsb' 16 8 = t.b1 ∧ (tcode s).extractLsb' 8 8 = t.b2 ∧
    (tcode s).extractLsb' 0 8 = t.b3 := by
  have hb : be32 (tcode s) = typeBytes t := by rw [tcode, h]; exact be32_be32dec _ _ _ _
  simpa [be32, typeBytes] using hb

/-- Four bits side by side, the last the lowest. -/
theorem getLsbD_ofBool_append (p q r b : Bool) :
    let x : BitVec 4 := BitVec.ofBool p ++ BitVec.ofBool q ++ BitVec.ofBool r ++ BitVec.ofBool b
    x.getLsbD 0 = b ∧ x.getLsbD 1 = r ∧ x.getLsbD 2 = q ∧ x.getLsbD 3 = p := by
  revert p q r b; decide

/-- Settles O35: each view by whether `T` holds a code. -/
theorem typeViewsShowTheCode : Obligations.TypeViewsShowTheCode := by
  constructor
  · intro s h
    simp [tv, tcode, prop, h]
  · intro s t h
    obtain ⟨h0, h1, h2, h3⟩ := tcode_bytes h
    have hprop : prop s = BitVec.ofBool (safeToCopy t) ++ BitVec.ofBool (reservedOk t) ++ BitVec.ofBool (isPublic t) ++
        BitVec.ofBool (critical t) := by rw [prop, h]
    rw [hprop]
    exact ⟨by rw [tv, h]; rfl, h0, h1, h2, h3, getLsbD_ofBool_append _ _ _ _⟩

/-! ### The registers by number -/

/-- Every register number is one of rule R38's rows or reserved. -/
theorem regNumber_cases (n : BitVec 4) : n.toNat ≤ 6 ∨ n = 7#4 ∨ n = 8#4 ∨ n = 9#4 ∨ n = 10#4 ∨ 11 ≤ n.toNat := by
  revert n; decide

theorem readReg_reserved {n : BitVec 4} (h : 11 ≤ n.toNat) (s : State) : readReg n s = 0 := by
  have hn : n = 11#4 ∨ n = 12#4 ∨ n = 13#4 ∨ n = 14#4 ∨ n = 15#4 := by revert n; decide
  rcases hn with rfl | rfl | rfl | rfl | rfl <;> rfl

/-- Registers 0 to 6 are words. -/
theorem readReg_lt_of_le_six {n : BitVec 4} (h : n.toNat ≤ 6) (s : State) : readReg n s < 2 ^ 32 := by
  have hn : n = 0#4 ∨ n = 1#4 ∨ n = 2#4 ∨ n = 3#4 ∨ n = 4#4 ∨ n = 5#4 ∨ n = 6#4 := by revert n; decide
  rcases hn with rfl | rfl | rfl | rfl | rfl | rfl | rfl <;> exact BitVec.isLt _

/-- Rule R8: where the parameters are in range, a length that fits `CAP_BUF` fits `AW` bits. -/
theorem fitsWidth_aw {c : Config} {n : Nat} (hc : c.wf = true) (hn : exceeds n c.capBuf = false) :
    fitsWidth n c.aw = true := by
  cases ha : c.aw with
  | unbounded => rfl
  | bits a =>
    cases hb : c.capBuf with
    | unbounded => simp [Config.wf, ha, hb] at hc
    | finite m =>
      simp only [Config.wf, ha, hb, fitsWidth, exceeds_finite, Bool.and_eq_true, decide_eq_true_eq,
        decide_eq_false_iff_not] at hc hn ⊢
      omega

/-- Rule R31: a number of chunks that fits `CAP_CHUNKS` fits `NCHUNKS`. -/
theorem fitsWidth_nChunksWidth {c : Cap} {n : Nat} (hn : exceeds n c = false) : fitsWidth n (nChunksWidth c) = true := by
  cases c with
  | unbounded => rfl
  | finite m =>
    rw [nChunksWidth]
    split
    · simp [fitsWidth] at hn ⊢; omega
    · rfl

/-- Rule R38: under the invariants every register fits its width. -/
theorem readReg_fitsWidth {s : State} (hs : s.Inv) (n : BitVec 4) : fitsWidth (readReg n s) (regWidth s.cfg n) = true := by
  obtain ⟨hcfg, -, -, hcs, hm, -⟩ := State.inv_iff.1 hs
  obtain ⟨hib, hob, hcur⟩ := (Memory.wf_iff s).1 hm
  obtain ⟨-, hn, -⟩ := storeOk_iff.1 hcs
  rcases regNumber_cases n with h | rfl | rfl | rfl | rfl | h
  · simpa [regWidth, h, fitsWidth] using readReg_lt_of_le_six h s
  · exact fitsWidth_nChunksWidth hn
  · exact fitsWidth_aw hcfg (exceeds_mono hcur hib)
  · exact fitsWidth_aw hcfg hib
  · exact fitsWidth_aw hcfg hob
  · rw [readReg_reserved h]
    cases regWidth s.cfg n with
    | bits k => exact decide_eq_true (Nat.two_pow_pos k)
    | unbounded => rfl

/-- Rules R27, R28: the views of `W` show a chunk's own numbers; its length fits the 32 bits of `WLEN`. -/
theorem workViews_of_inv {s : State} (hs : s.Inv) {c : Chunk} (hw : s.w = some c) :
    (wLen s).toNat = c.data.length ∧ wType s = be32dec (typeBytes c.type) ∧ wCrc s = c.crc := by
  obtain ⟨-, -, hc, -, -, -⟩ := State.inv_iff.1 hs
  rw [hw] at hc
  obtain ⟨-, -, hlen, -⟩ := chunkOk_iff.1 hc
  refine ⟨?_, by rw [wType, hw], by rw [wCrc, hw]⟩
  rw [wLen, hw]
  exact ofNat_length hlen

/-- Settles O38: the numbers by the port's definition, the widths from the invariants. -/
theorem registersReadWithinTheirWidths : Obligations.RegistersReadWithinTheirWidths :=
  ⟨fun s => ⟨rfl, rfl, rfl, rfl, rfl, rfl, rfl, rfl, rfl, rfl, rfl, fun _ hn => readReg_reserved hn s⟩,
    fun _ hs => ⟨readReg_fitsWidth hs, fun _ => workViews_of_inv hs⟩⟩

end Sys2Proof.Machine
end

section
/-! Where a step stops (spec/20_memory.md rule R55, spec/44_system.md rules R210, R211) and how far a command moves the
cursor (spec/20_memory.md rule R54). -/

namespace Sys2Proof.Machine

open Sys2Proof.Statements (Over)

/-! ### Where a step stops -/

theorem exceeds_eq_true_iff_over {n : Nat} {c : Cap} : exceeds n c = true ↔ Over n c := by
  cases c with
  | finite m => simp [Over]
  | unbounded => simp [Over]

/-- Rules R210, R211: every action gives a next state, except a load that does not fit `CAP_BUF`; `step_cases` says which. -/
theorem step_next_or_refused_load (s : State) :
    (∃ t, step s = .next t) ∨
    (step s = .refused .loadNotEnabled ∧
      ∃ b rest, s.pending = .load b :: rest ∧ exceeds b.length s.cfg.capBuf = true) := by
  match hp : s.pending with
  | [] => exact .inl ⟨s, by rw [step, takeAction_nil hp]; rfl⟩
  | .issue w :: rest =>
    obtain ⟨e, he⟩ := ends_total (decode w) (setPending rest s)
    exact .inl ⟨_, by rw [step, takeAction_cons hp]; exact he.exec_eq⟩
  | .load b :: rest =>
    have hstep : step s = hostLoad b (setPending rest s) := by rw [step, takeAction_cons hp]
    cases hb : exceeds b.length s.cfg.capBuf with
    | false => exact .inl ⟨_, hstep.trans (hostLoad_eq_next.2 ⟨hb, rfl⟩)⟩
    | true => exact .inr ⟨hstep.trans (if_pos hb), b, rest, rfl, hb⟩
  | .read p :: rest => exact .inl ⟨_, by rw [step, takeAction_cons hp]; rfl⟩
  | .reset :: rest => exact .inl ⟨_, by rw [step, takeAction_cons hp]; rfl⟩

/-- Settles O13: a step has a next state or is the refused load. -/
theorem stepsNeverFault : Obligations.StepsNeverFault := by
  intro s
  rcases step_next_or_refused_load s with ⟨t, ht⟩ | ⟨hr, b, rest, hp, hb⟩
  · rw [ht]
    exact ⟨fun _ => nofun, fun _ => nofun⟩
  · rw [hr]
    refine ⟨fun _ => nofun, fun r h => ?_⟩
    cases h
    exact ⟨rfl, b, rest, hp, exceeds_eq_true_iff_over.1 hb⟩

/-! ### The cursor -/

theorem Ending.eq_done_of_err {e : Ending} (h : e.err = 0#3) : ∃ f u, e = .done f u := by
  cases e with
  | done f u => exact ⟨f, u, rfl⟩
  | error k r => exact absurd h (errCode_range k).1
  | refused r => exact absurd h (show errRefused ≠ 0#3 by decide)

/-- Rule R54: an error and a refusal leave the cursor. -/
theorem Ending.writes_cur_of_err_ne_zero {e : Ending} (h : e.err ≠ 0#3) : e.writes.cur = none := by
  cases e with
  | done f u => exact absurd rfl h
  | error k r => cases r <;> rfl
  | refused r => rfl

theorem Ending.state_cur_of_writes {e : Ending} {s : State} {n : Nat} (h : e.writes.cur = some n) : (e.state s).cur = n := by
  simp [h]

/-- The bytes before the cursor and the span are the whole buffer. -/
theorem cur_add_span_length {s : State} (h : s.cur ≤ s.ib.length) : s.cur + (span s).length = s.ib.length := by
  rw [span, List.length_drop]; omega

/-- Rule R54's table, the rows that consume: the whole span to the end of `IB`, four bytes, or one frame. -/
theorem Ends.done_cur {i : Instr} {s : State} {f : Bool} {u : Writes} (h : Ends s i (.done f u)) :
    (opcodeOf i ∈ [0x2#4, 0x4#4, 0x5#4, 0x8#4, 0xA#4, 0xB#4] → u.cur = some s.ib.length) ∧
    (opcodeOf i = 0x3#4 → u.cur = some (s.cur + 4)) ∧
    (opcodeOf i = 0x6#4 → u.cur = some (s.cur + (12 + (be32dec ((span s).take 4)).toNat))) := by
  cases h with
  | chParse a hp hc =>
    obtain ⟨-, -, hn, -⟩ := parseChunk_ok hp
    simp [opcodeOf, hn, slice]
  | _ => simp [opcodeOf]

/-- Rule R149: `TC.PARSES` ends ok only on a span of exactly four bytes. -/
theorem Ends.tcParses_span_length {i : Instr} {s : State} {f : Bool} {u : Writes} (h : Ends s i (.done f u))
    (hi : opcodeOf i = 0x4#4) : (span s).length = 4 := by
  cases h with
  | tcParses a ht => rw [(typeOfBytes_eq_some.1 ht).1, typeBytes_length]
  | _ => simp [opcodeOf] at hi

/-- Settles O57: the cursor that each ending writes; the rows with 0 are the commands that never write it. -/
theorem cursorMovesPastWhatIsConsumed : Obligations.CursorMovesPastWhatIsConsumed := by
  intro i s t hcur h
  obtain ⟨e, he, rfl⟩ := ends_of_exec h
  refine ⟨rfl, fun herr => by simp [Ending.writes_cur_of_err_ne_zero herr], fun herr => ?_⟩
  obtain ⟨f, u, rfl⟩ := Ending.eq_done_of_err herr
  obtain ⟨hwhole, hfour, hframe⟩ := he.done_cur
  obtain ⟨-, -, -, -, hnone, -⟩ := he.writes_table
  refine ⟨fun hi => ?_, he.tcParses_span_length, fun hi => ?_, fun hi => ?_, fun hi => ?_⟩
  · rw [cur_add_span_length hcur]
    exact Ending.state_cur_of_writes (hwhole hi)
  · exact Ending.state_cur_of_writes (hfour hi)
  · exact Ending.state_cur_of_writes (hframe hi)
  · have hother : ∀ op ∈ [0x0#4, 0x1#4, 0x7#4, 0x9#4, 0xC#4, 0xD#4],
        op ∉ [0x2#4, 0x3#4, 0x4#4, 0x5#4, 0x6#4, 0x8#4, 0xA#4, 0xB#4] := by decide
    simp [hnone (hother _ hi)]

end Sys2Proof.Machine
end

section
/-! Command words (spec/30_encoding.md rules R100, R101, R103). `decode` loses neither field of a word: the command it
gives has the word's `op` as its opcode and the word's `arg` as its argument. -/

namespace Sys2Proof.Machine

/-- The `op` field, bit by bit, as the decoder reads it (rule R101). -/
theorem opField_eq_bits (w : CmdWord) :
    opField w = BitVec.ofBool (w.getLsbD 35) ++ BitVec.ofBool (w.getLsbD 34) ++ BitVec.ofBool (w.getLsbD 33) ++
      BitVec.ofBool (w.getLsbD 32) := by
  obtain ⟨h0, h1, h2, h3⟩ := getLsbD_ofBool_append (w.getLsbD 35) (w.getLsbD 34) (w.getLsbD 33) (w.getLsbD 32)
  apply BitVec.eq_of_getLsbD_eq
  intro i hi
  rw [opField, BitVec.getLsbD_extractLsb']
  interval_cases i
  exacts [h0.symm, h1.symm, h2.symm, h3.symm]

/-- Each of the 16 rows gives the command whose opcode is the four bits of the row (rule R101). -/
theorem opcodeOf_decode (w : CmdWord) : opcodeOf (decode w) = opField w := by
  rw [opField_eq_bits, decode]
  split <;> simp only [opcodeOf, *] <;> rfl

/-- Every row keeps the `arg` field (rule R100). -/
theorem arg_decode (w : CmdWord) : (decode w).arg = argField w := by
  rw [decode]
  split <;> rfl

/-- Rule R103: a word is what its decoding encodes to. -/
@[simp] theorem encode_decode (w : CmdWord) : encode (decode w) = w := by
  rw [encode, opcodeOf_decode, arg_decode, word_of_fields]

/-- Rule R101, row by row: the four `op` bits of a command's word select the command's own row. -/
@[simp] theorem decode_encode (i : Instr) : decode (encode i) = i := by
  cases i <;> simp only [encode, opcodeOf, Instr.arg, decode, getLsbD_word, argField_word] <;> rfl

/-- Settles O1: the two round trips. -/
theorem decodeAndEncodeAreInverse : Obligations.DecodeAndEncodeAreInverse := ⟨decode_encode, encode_decode⟩

/-- Settles O2: each row of the table is the round trip of its command. -/
theorem opcodeMapIsTheSpecs : Obligations.OpcodeMapIsTheSpecs := fun a =>
  ⟨decode_encode (.nop a), decode_encode (.crcClr a), decode_encode (.crcUpd a), decode_encode (.tcParse a),
    decode_encode (.tcParses a), decode_encode (.chNew a), decode_encode (.chParse a), decode_encode (.chSer a),
    decode_encode (.ctParse a), decode_encode (.ctAppend a), decode_encode (.ctFind a), decode_encode (.ctRemove a),
    decode_encode (.ctGet a), decode_encode (.ctSer a), decode_encode (.reservedE a), decode_encode (.reservedF a)⟩

/-- Rule R100: a command other than `CT.GET` does what any word with its opcode does. -/
theorem exec_decode_word {i : Instr} (h : opcodeOf i ≠ 0xC#4) (b : Word) (s : State) :
    exec (decode (opcodeOf i ++ b)) s = exec i s := by
  cases i with
  | ctGet a => exact absurd rfl h
  | _ => simp only [opcodeOf, decode, getLsbD_word]; rfl

/-- Settles O4: the second command is the decoding of a word with the first one's opcode. -/
theorem argIsIgnoredExceptByCtGet : Obligations.ArgIsIgnoredExceptByCtGet := by
  intro i j s hop hi
  have hj : decode (opcodeOf i ++ j.arg) = j := hop ▸ decode_encode j
  rw [← exec_decode_word hi j.arg, hj]

end Sys2Proof.Machine
end

section
/-! The frame of a chunk (spec/30_encoding.md rule R89, spec/42_chunk.md rules R162, R164): four fields one after another.
`parseChunk_fields` runs the parse on bytes laid out in fields; the other way, the slices that a parse has read lie end
to end, so the frame of its result is the bytes it consumed. -/

namespace Sys2Proof.Machine

open Sys2Proof.Statements (FourLetters GoodChunk Letter)

/-- Rules R140, R141: the statements' letters are the ones `typeValid` accepts. -/
theorem fourLetters_iff {t : TypeCode} : FourLetters t ↔ typeValid t = true := by
  simp only [FourLetters, Letter, typeValid, isLetter, Bool.and_eq_true, Bool.or_eq_true, decide_eq_true_eq, BitVec.le_def,
    and_assoc]
  rfl

/-- Rule R28 with its letters as the parser tests them. -/
theorem goodChunk_iff {c : Chunk} :
    GoodChunk c ↔ typeValid c.type = true ∧ c.crc = crc32 (typeBytes c.type ++ c.data) ∧ c.data.length ≤ 2 ^ 32 - 1 := by
  rw [GoodChunk, fourLetters_iff]

/-! ### Slices -/

/-- A slice that takes exactly the middle string. -/
theorem slice_append_mid (a m b : List Byte) {p q : Nat} (hp : a.length = p) (hq : p + m.length = q) :
    slice (a ++ m ++ b) p q = m := by
  subst hp hq
  simp [slice]

/-- Two slices end to end are one slice. -/
theorem slice_append_slice (s : List Byte) {a b c : Nat} (hab : a ≤ b) (hbc : b ≤ c) :
    slice s a b ++ slice s b c = slice s a c := by
  obtain ⟨m, rfl⟩ := Nat.exists_eq_add_of_le hab
  obtain ⟨n, rfl⟩ := Nat.exists_eq_add_of_le hbc
  rw [slice, slice, slice, Nat.add_sub_cancel_left, Nat.add_sub_cancel_left, Nat.add_assoc, Nat.add_sub_cancel_left,
    List.take_add, List.drop_drop]

/-- Rule R13: any four bytes are read and written back unchanged. -/
theorem be32_be32dec_of_length {b : List Byte} (h : b.length = 4) : be32 (be32dec b) = b := by
  match b, h with
  | [b0, b1, b2, b3], _ => exact be32_be32dec b0 b1 b2 b3

/-! ### From the fields to the chunk -/

/-- `parse_chunk` on a length field, four letters, that many data bytes, a checksum field and any bytes after them:
only the checksum is left to be tested (rule R164 step 6). -/
theorem parseChunk_fields {l k : Word} {t : TypeCode} {d : List Byte} (x : List Byte) (ht : typeValid t = true)
    (hd : d.length = l.toNat) :
    parseChunk (be32 l ++ typeBytes t ++ d ++ be32 k ++ x) =
      if crc32 (typeBytes t ++ d) = k then .ok (⟨t, d, k⟩, 12 + d.length) else .error .checksumMismatch := by
  generalize hs : be32 l ++ typeBytes t ++ d ++ be32 k ++ x = s
  have hlen : s.length = 12 + d.length + x.length := by simp [← hs]; omega
  have h0 : slice s 0 4 = be32 l := by
    simpa [← hs] using slice_append_left (be32 l) (typeBytes t ++ d ++ be32 k ++ x)
  have h4 : slice s 4 8 = typeBytes t := by
    simpa [← hs] using slice_append_mid (be32 l) (typeBytes t) (d ++ be32 k ++ x) rfl rfl
  have h8 : slice s 8 (8 + d.length) = d := by
    simpa [← hs] using slice_append_mid (be32 l ++ typeBytes t) d (be32 k ++ x) rfl rfl
  have hk : slice s (8 + d.length) (12 + d.length) = be32 k := by
    rw [← hs]
    exact slice_append_mid (be32 l ++ typeBytes t ++ d) (be32 k) x (by simp; omega) (by simp; omega)
  rw [parseChunk, if_neg (by omega)]
  simp only [h0, h4, typeOfBytes_typeBytes ht, be32dec_be32, ← hd, h8, hk]
  exact if_neg (by omega)

/-- Rule R89: a good chunk's frame, with any bytes after it, parses to the chunk. -/
theorem parseChunk_frame_append {c : Chunk} (hc : GoodChunk c) (x : List Byte) :
    parseChunk (frame c ++ x) = .ok (c, 12 + c.data.length) := by
  obtain ⟨ht, hcrc, hlen⟩ := goodChunk_iff.1 hc
  rw [frame, parseChunk_fields x ht (ofNat_length hlen).symm, if_pos hcrc.symm]

/-! ### From the chunk to the bytes -/

theorem goodChunk_of_parseChunk {s : List Byte} {c : Chunk} {n : Nat} (h : parseChunk s = .ok (c, n)) : GoodChunk c := by
  obtain ⟨-, -, -, -, ht, -, -, hcrc⟩ := parseChunk_ok h
  exact goodChunk_iff.2 ⟨ht, hcrc, parseChunk_data_le h⟩

/-- The length field of the frame is the one the parse has read. -/
theorem be32_length_of_parseChunk {s : List Byte} {c : Chunk} {n : Nat} (h : parseChunk s = .ok (c, n)) :
    be32 (BitVec.ofNat 32 c.data.length) = slice s 0 4 := by
  obtain ⟨h12, hns, hn, -⟩ := parseChunk_ok h
  have hlen := parseChunk_data_length h
  rw [show c.data.length = (be32dec (slice s 0 4)).toNat by omega, BitVec.ofNat_toNat, BitVec.setWidth_eq]
  exact be32_be32dec_of_length (by rw [slice_length]; omega)

/-- Rule R89: the frame of a parsed chunk is exactly the bytes consumed. -/
theorem frame_of_parseChunk {s : List Byte} {c : Chunk} {n : Nat} (h : parseChunk s = .ok (c, n)) :
    frame c = s.take n := by
  obtain ⟨h12, hns, -, htype, -, hdata, hcrc, -⟩ := parseChunk_ok h
  have hk : be32 c.crc = slice s (n - 4) n := hcrc ▸ be32_be32dec_of_length (by rw [slice_length]; omega)
  calc frame c = slice s 0 4 ++ slice s 4 8 ++ slice s 8 (n - 4) ++ slice s (n - 4) n := by
        rw [frame, be32_length_of_parseChunk h, ← htype, ← hdata, ← hk]
    _ = slice s 0 n := by
        rw [slice_append_slice s (by omega) (by omega), slice_append_slice s (by omega) (by omega),
          slice_append_slice s (by omega) (by omega)]
    _ = s.take n := rfl

/-- Settles O41: parsing undoes framing, and framing undoes parsing. -/
theorem frameEncodingIsExactBothWays : Obligations.FrameEncodingIsExactBothWays := by
  refine ⟨fun c x hc => parseChunk_frame_append hc x, fun s c n h => ?_⟩
  obtain ⟨-, hn, -⟩ := parseChunk_ok h
  exact ⟨frame_of_parseChunk h, hn, parseChunk_data_length h, goodChunk_of_parseChunk h⟩

end Sys2Proof.Machine
end

section
/-! The CRC step as a shift register (spec/40_crc.md rules R121 to R123, R130, R131, R135). Three facts about one shift carry
the rest: its bits (`getLsbD_crcShift`), that it is linear over exclusive-or (`crcShift_xor`), and that it is injective,
because bit 31 of the result is the bit shifted out. -/

namespace Sys2Proof.Machine

/-! ### One shift -/

/-- Rule R121's shift register in one equation: at `i = 31` the bit above is absent and `POLY_R` has a tap. -/
theorem getLsbD_crcShift (c : Word) (i : Nat) :
    (crcShift c).getLsbD i = (c.getLsbD (i + 1) ^^ (polyR.getLsbD i && c.getLsbD 0)) := by
  cases h : c.getLsbD 0 with
  | true => rw [crcShift, if_pos h, BitVec.getLsbD_xor, BitVec.getLsbD_ushiftRight, Nat.add_comm, Bool.and_true]
  | false =>
    rw [crcShift, if_neg (by rw [h]; decide), BitVec.getLsbD_ushiftRight, Nat.add_comm, Bool.and_false, Bool.xor_false]

/-- Bit 31 of the result is the bit shifted out. -/
theorem getLsbD_31_crcShift (c : Word) : (crcShift c).getLsbD 31 = c.getLsbD 0 := by
  have htap : polyR.getLsbD 31 = true := by decide
  rw [getLsbD_crcShift, htap, Bool.true_and, BitVec.getLsbD_of_ge c 32 (Nat.le_refl 32), Bool.false_xor]

/-- The taps that rule R121 lists. -/
def polyRTaps : List Nat := [31, 30, 29, 27, 26, 24, 23, 21, 20, 19, 15, 9, 8, 5]

/-- A bit that is set is one of the 32, and those are checked one by one. -/
theorem polyR_tap_iff (i : Nat) : polyR.getLsbD i = true ↔ i ∈ polyRTaps := by
  have hset : ∀ j < 32, polyR.getLsbD j = true → j ∈ polyRTaps := by decide
  have htap : ∀ j ∈ polyRTaps, polyR.getLsbD j = true := by decide
  exact ⟨fun h => hset i (BitVec.lt_of_getLsbD h) h, htap i⟩

/-- Both shifted parts and the tap are exclusive-ors of the operands' bits. -/
theorem crcShift_xor (c d : Word) : crcShift (c ^^^ d) = crcShift c ^^^ crcShift d := by
  apply BitVec.eq_of_getLsbD_eq
  intro i hi
  simp only [BitVec.getLsbD_xor, getLsbD_crcShift, Bool.and_xor_distrib_left, Bool.xor_assoc, Bool.xor_left_comm]

/-- Rule R130: the bit shifted out is read back at bit 31, and with it every other bit. -/
theorem crcShift_injective : Function.Injective crcShift := by
  intro c d h
  have h0 : c.getLsbD 0 = d.getLsbD 0 := by rw [← getLsbD_31_crcShift, h, getLsbD_31_crcShift]
  apply BitVec.eq_of_getLsbD_eq
  intro i hi
  cases i with
  | zero => exact h0
  | succ j =>
    have hj : (crcShift c).getLsbD j = (crcShift d).getLsbD j := by rw [h]
    rw [getLsbD_crcShift, getLsbD_crcShift, h0] at hj
    exact Bool.xor_left_inj.1 hj

/-! ### Several shifts -/

theorem crcShifts_eq_iterate (n : Nat) (c : Word) : crcShifts n c = crcShift^[n] c := by
  induction n generalizing c with
  | zero => rfl
  | succ n ih => exact ih (crcShift c)

theorem crcShifts_injective (n : Nat) : Function.Injective (crcShifts n) := by
  rw [funext (crcShifts_eq_iterate n)]
  exact crcShift_injective.iterate n

theorem crcShifts_xor (n : Nat) (c d : Word) : crcShifts n (c ^^^ d) = crcShifts n c ^^^ crcShifts n d := by
  induction n generalizing c d with
  | zero => rfl
  | succ n ih => rw [crcShifts, crcShift_xor, ih]; rfl

/-- While zeros are shifted out, no tap is taken. -/
theorem crcShifts_of_low_zero {n : Nat} {c : Word} (h : ∀ i < n, c.getLsbD i = false) : crcShifts n c = c >>> n := by
  induction n generalizing c with
  | zero => simp [crcShifts]
  | succ n ih =>
    have hshift : crcShift c = c >>> 1 := if_neg (by rw [h 0 (Nat.succ_pos n)]; decide)
    have hlow : ∀ i < n, (c >>> 1).getLsbD i = false := fun i hi => by
      rw [BitVec.getLsbD_ushiftRight]; exact h _ (by omega)
    rw [crcShifts, hshift, ih hlow, ← BitVec.shiftRight_add, Nat.add_comm]

/-! ### One byte -/

theorem crcByte_injective_state (b : Byte) : Function.Injective fun c : Word => crcByte c b := by
  intro c d h
  exact (BitVec.xor_left_inj _).1 (crcShifts_injective 8 h)

theorem crcByte_injective_byte (c : Word) : Function.Injective fun b : Byte => crcByte c b := by
  intro a b h
  have hz : a.zeroExtend 32 = b.zeroExtend 32 := (BitVec.xor_right_inj _).1 (crcShifts_injective 8 h)
  simpa using congrArg (BitVec.setWidth 8) hz

/-- Settles O32: the step is injective on a finite set of states, so bijective. -/
theorem crcStepIsABijection : Obligations.CrcStepIsABijection :=
  ⟨fun b => Finite.injective_iff_bijective.1 (crcByte_injective_state b), crcByte_injective_byte,
    by decide +kernel, by decide⟩

/-! ### The table form -/

/-- A word is its low byte and the rest, as an exclusive-or. -/
theorem word_eq_low_xor_high (x : Word) :
    x = (x.extractLsb' 0 8).zeroExtend 32 ^^^ ((x >>> 8) <<< 8) := by
  apply BitVec.eq_of_getLsbD_eq
  intro i hi
  rcases Nat.lt_or_ge i 8 with h | h
  · simp [h, hi]
  · simp [h, hi]

/-- Eight shifts send the low byte through the taps and only move the rest down. -/
theorem crcShifts_eight_split (x : Word) :
    crcShifts 8 x = crcShifts 8 ((x.extractLsb' 0 8).zeroExtend 32) ^^^ (x >>> 8) := by
  have hlow : ∀ i < 8, ((x >>> 8) <<< 8).getLsbD i = false := fun i hi => by simp [hi]
  have hback : ((x >>> 8) <<< 8) >>> 8 = x >>> 8 := by
    apply BitVec.eq_of_getLsbD_eq
    intro i hi
    simpa using fun h => BitVec.lt_of_getLsbD h
  calc crcShifts 8 x
      = crcShifts 8 ((x.extractLsb' 0 8).zeroExtend 32 ^^^ ((x >>> 8) <<< 8)) := by rw [← word_eq_low_xor_high]
    _ = crcShifts 8 ((x.extractLsb' 0 8).zeroExtend 32) ^^^ (x >>> 8) := by
        rw [crcShifts_xor, crcShifts_of_low_zero hlow, hback]

/-- A byte does not reach past bit 7. -/
theorem zeroExtend_ushiftRight_eight (b : Byte) : b.zeroExtend 32 >>> 8 = 0#32 := by
  apply BitVec.eq_of_getLsbD_eq
  intro i hi
  simp

/-- Rule R123 before the listing: the low byte goes through the taps, the rest is only shifted, and the byte that enters
does not reach it. -/
theorem crcByte_eq_low_xor_shift (c : Word) (b : Byte) :
    crcByte c b = crcByte 0#32 ((c ^^^ b.zeroExtend 32).extractLsb' 0 8) ^^^ (c >>> 8) := by
  have hrest : (c ^^^ b.zeroExtend 32) >>> 8 = c >>> 8 := by
    rw [BitVec.ushiftRight_xor_distrib, zeroExtend_ushiftRight_eight, BitVec.xor_zero]
  rw [crcByte, crcByte, BitVec.zero_xor, ← hrest]
  exact crcShifts_eight_split (c ^^^ b.zeroExtend 32)

/-- Rule R135: the listing, entry by entry. -/
theorem crcTab_eq : crcTab = (List.range 256).map fun i => crcByte 0#32 (BitVec.ofNat 8 i) := by decide +kernel

theorem crcTab_getElem? (b : Byte) : crcTab[b.toNat]? = some (crcByte 0#32 b) := by
  rw [crcTab_eq, List.getElem?_map, List.getElem?_range b.isLt, Option.map_some, BitVec.ofNat_toNat, BitVec.setWidth_eq]

/-- Settles O31: the listed entries, and the split of the state into its low byte and the rest. -/
theorem crcTableFormEqualsTheBitSerialStep : Obligations.CrcTableFormEqualsTheBitSerialStep := by
  refine ⟨by rw [crcTab_eq, List.length_map, List.length_range], crcTab_getElem?, fun c b => ?_⟩
  rw [crcByteByTable, List.getD_eq_getElem?_getD, crcTab_getElem?, Option.getD_some]
  exact crcByte_eq_low_xor_shift c b

/-! ### A string -/

/-- Rule R122, the composition law. -/
theorem crcRaw_append (c : Word) (s t : List Byte) : crcRaw c (s ++ t) = crcRaw (crcRaw c s) t :=
  List.foldl_append

/-- Settles O30: the shift bit by bit, then the byte and the string as repetitions of it. -/
theorem crcStepIsTheShiftRegister : Obligations.CrcStepIsTheShiftRegister :=
  ⟨fun c i _ => getLsbD_crcShift c i, getLsbD_31_crcShift, polyR_tap_iff,
    fun _ _ => crcShifts_eq_iterate 8 _, by decide, fun _ => rfl, fun _ _ _ => rfl, crcRaw_append⟩

/-- Absorbing the same bytes keeps different states different. -/
theorem crcRaw_injective (s : List Byte) : Function.Injective fun c : Word => crcRaw c s := by
  induction s with
  | nil => exact fun _ _ h => h
  | cons b s ih => exact ih.comp (crcByte_injective_state b)

/-- Rule R131: the changed byte makes the states differ, and the bytes after it keep them apart. -/
theorem crc32_ne_of_byte_ne (p q : List Byte) {a b : Byte} (hab : a ≠ b) :
    crc32 (p ++ a :: q) ≠ crc32 (p ++ b :: q) := by
  intro h
  have hraw : crcRaw crcInit (p ++ a :: q) = crcRaw crcInit (p ++ b :: q) := (BitVec.xor_left_inj _).1 h
  rw [crcRaw_append, crcRaw_append] at hraw
  exact hab (crcByte_injective_byte _ (crcRaw_injective q hraw))

theorem xor_bit_ne (a : Byte) {k : Nat} (hk : k < 8) : a ^^^ (1#8 <<< k) ≠ a := by
  intro h
  have hbit : (a ^^^ (1#8 <<< k)).getLsbD k = a.getLsbD k := by rw [h]
  simp [hk] at hbit

/-- Settles O33: a flipped bit is a changed byte. -/
theorem oneByteChangeChangesTheCrc : Obligations.OneByteChangeChangesTheCrc :=
  ⟨fun p q _ _ => crc32_ne_of_byte_ne p q, fun p q a _ hk => crc32_ne_of_byte_ne p q (xor_bit_ne a hk)⟩

end Sys2Proof.Machine
end

section
/-! The commands of the CRC unit (spec/40_crc.md rules R127 to R129) and the pseudo-command `CRC32` that strings them together
(spec/30_encoding.md rule R105). -/

namespace Sys2Proof.Machine

/-- Settles O17: the start value and its complement. -/
theorem crcClrStartsAComputation : Obligations.CrcClrStartsAComputation :=
  fun a _ => ⟨decode_encode (.crcClr a), _, (Ends.crcClr a).exec_eq, rfl, BitVec.xor_self, rfl⟩

/-- Rule R53: nothing is left of the buffer at or past its end. -/
theorem span_eq_nil {s : State} (h : s.ib.length ≤ s.cur) : span s = [] := List.drop_eq_nil_of_le h

/-- Settles O18: the two-load law is the composition law of rule R122. -/
theorem crcUpdAbsorbsTheSpan : Obligations.CrcUpdAbsorbsTheSpan := by
  refine ⟨fun a s => ⟨decode_encode (.crcUpd a), (Ends.crcUpd a).exec_eq⟩, fun s h => ?_, fun a s x y => ?_⟩
  · rw [span_eq_nil h]; rfl
  · exact ⟨_, _, _, (Ends.crcUpd a).exec_eq, (Ends.crcUpd a).exec_eq, (Ends.crcUpd a).exec_eq, (crcRaw_append s.crc x y).symm⟩

/-! ### Runs of the host's actions -/

theorem runActions_command {i : Instr} {s t : State} (h : exec i s = .next t) (l : List HostAction) :
    runActions (command i :: l) s = runActions l t := by
  have hstep : step (setPending (command i :: s.pending) s) = .next t := by
    rw [step, takeAction_cons rfl]
    exact (congrArg (exec · s) (decode_encode i)).trans h
  rw [runActions, hstep]

theorem runActions_load {b : List Byte} {s : State} (h : exceeds b.length s.cfg.capBuf = false) (l : List HostAction) :
    runActions (.load b :: l) s = runActions l (setInput b 0 s) := by
  have hstep : step (setPending (.load b :: s.pending) s) = .next (setInput b 0 s) := by
    rw [step, takeAction_cons rfl]
    exact hostLoad_eq_next.2 ⟨h, rfl⟩
  rw [runActions, hstep]

/-- Rule R105: `CRC32 b` where `CAP_BUF` holds `b` leaves `crc32(b)` at `CRCOUT`. -/
theorem runActions_pseudoCrc32 {b : List Byte} {s : State} (h : exceeds b.length s.cfg.capBuf = false) :
    ∃ u, runActions (pseudoCrc32 b) s = .next u ∧ crcOut u = crc32 b := by
  rw [pseudoCrc32, runActions_command (Ends.crcClr 0#32).exec_eq, runActions_load (by rwa [Ending.state_cfg]),
    runActions_command (Ends.crcUpd 0#32).exec_eq]
  exact ⟨_, rfl, by simp [crcOut, crc32, Ending.writes]⟩

/-- Rules R161, R163: the chunk that `CH.NEW` composes has the checksum of its type and data. -/
theorem exec_chNew_wCrc {v : State} {t : TypeCode} (a : Word) (ht : v.t = some t) (hl : (span v).length ≤ 2 ^ 32 - 1)
    (hc : (span v).length ≤ v.cfg.capData) :
    ∃ x, exec (.chNew a) v = .next x ∧ wv x = true ∧ wCrc x = crc32 (typeBytes t ++ span v) :=
  ⟨_, (Ends.chNew a ht hl hc).exec_eq, rfl, rfl⟩

/-- Settles O34: all three are `crc32` of the type and the data. -/
theorem crcUnitAgreesWithTheChunkUnit : Obligations.CrcUnitAgreesWithTheChunkUnit := by
  intro s t d hfit
  obtain ⟨u, hrun, hout⟩ := runActions_pseudoCrc32 (Bool.eq_false_iff.2 (mt exceeds_eq_true_iff_over.1 hfit))
  refine ⟨u, hrun, hout, fun v ht hd hl hc => ?_, fun c n b hp ht hd => ?_⟩
  · subst hd
    rw [hout]
    exact exec_chNew_wCrc 0#32 ht hl hc
  · obtain ⟨-, -, -, -, -, -, -, hcrc⟩ := parseChunk_ok hp
    rw [hcrc, ht, hd, hout]

end Sys2Proof.Machine
end

section
/-! The commands of the type-code unit (spec/41_typecode.md rules R148 to R150). Both test a byte string with `typeOfBytes`:
`TC.PARSE` the first four bytes of the span, `TC.PARSES` the whole span. -/

namespace Sys2Proof.Machine

open Sys2Proof.Statements (FourLetters)

/-! ### Which byte strings are type codes -/

/-- Rule R141: four letters are the code they spell. -/
theorem typeOfBytes_of_fourLetters {t : TypeCode} (h : FourLetters t) : typeOfBytes (typeBytes t) = some t :=
  typeOfBytes_typeBytes (fourLetters_iff.1 h)

/-- Rule R141: a string of any length is rejected exactly when it is not the four bytes of four letters. -/
theorem typeOfBytes_eq_none_iff {b : List Byte} :
    typeOfBytes b = none ↔ ∀ t : TypeCode, b = typeBytes t → ¬ FourLetters t := by
  simp only [Option.eq_none_iff_forall_ne_some, ne_eq, typeOfBytes_eq_some, fourLetters_iff, not_and]

theorem typeOfBytes_of_not_fourLetters {t : TypeCode} (h : ¬ FourLetters t) : typeOfBytes (typeBytes t) = none :=
  typeOfBytes_eq_none_iff.2 fun _ hu => typeBytes_injective hu ▸ h

/-! ### `TC.PARSE` on a span of four bytes and more -/

section
variable {s : State} {t : TypeCode} {rest : List Byte}

/-- The bytes that `TC.PARSE` reads of such a span. -/
theorem take_four_of_append {b : List Byte} (h : b = typeBytes t ++ rest) : b.take 4 = typeBytes t :=
  h ▸ List.take_left' (typeBytes_length t)

theorem four_le_length_of_append {b : List Byte} (h : b = typeBytes t ++ rest) : 4 ≤ b.length := by
  simp [h]

/-- Rule R148, the outcome ok. -/
theorem exec_tcParse_of_fourLetters (a : Word) (h : span s = typeBytes t ++ rest) (ht : FourLetters t) :
    exec (.tcParse a) s = .next { s with
      t := some t, cur := s.cur + 4, err := 0#3, rsn := 0#2, found := false } :=
  (Ends.tcParse a (four_le_length_of_append h)
    ((take_four_of_append h).symm ▸ typeOfBytes_of_fourLetters ht)).exec_eq

/-- Rule R148, the outcome `InvalidTypeCode`. -/
theorem exec_tcParse_of_not_fourLetters (a : Word) (h : span s = typeBytes t ++ rest) (ht : ¬ FourLetters t) :
    exec (.tcParse a) s = .next { s with t := none, err := 1#3, rsn := 0#2, found := false } :=
  (Ends.tcParseBad a (four_le_length_of_append h)
    ((take_four_of_append h).symm ▸ typeOfBytes_of_not_fourLetters ht)).exec_eq

end

/-- Settles O19: a short span by the guard of the refusal, a longer one by its first four bytes. -/
theorem tcParseTakesFourBytes : Obligations.TcParseTakesFourBytes := fun a _ =>
  ⟨decode_encode (.tcParse a), fun hshort => (Ends.tcParseShort a hshort).exec_eq,
    fun _ _ => exec_tcParse_of_fourLetters a, fun _ _ => exec_tcParse_of_not_fourLetters a⟩

/-- Settles O20: the span spells a code, or no code is the span. -/
theorem tcParsesTakesTheWholeSpan : Obligations.TcParsesTakesTheWholeSpan := by
  refine fun a s => ⟨decode_encode (.tcParses a), fun t hspan ht => ?_, fun hnone => ?_⟩
  · have hcode : typeOfBytes (span s) = some t := hspan ▸ typeOfBytes_of_fourLetters ht
    exact (Ends.tcParses a hcode).exec_eq
  · exact (Ends.tcParsesBad a (typeOfBytes_eq_none_iff.2 hnone)).exec_eq

/-! ### The round trip -/

/-- Rule R24: the big-endian bytes of `TCODE` are the code's. -/
theorem be32_tcode {s : State} {t : TypeCode} (h : s.t = some t) : be32 (tcode s) = typeBytes t := by
  obtain ⟨h0, h1, h2, h3⟩ := tcode_bytes h
  rw [be32, typeBytes, h0, h1, h2, h3]

/-- Settles O36: the loaded bytes are the whole span, and they are four letters or not. -/
theorem typeCodeRoundTrip : Obligations.TypeCodeRoundTrip := by
  intro a s t
  have hspan : span { s with ib := typeBytes t, cur := 0 } = typeBytes t ++ [] := (List.append_nil _).symm
  by_cases ht : FourLetters t
  · exact ⟨_, exec_tcParse_of_fourLetters a hspan ht, .inl ⟨ht, rfl, be32_tcode rfl, rfl⟩⟩
  · exact ⟨_, exec_tcParse_of_not_fourLetters a hspan ht, .inr ⟨ht, rfl, rfl⟩⟩

end Sys2Proof.Machine
end

section
/-! What `parse_chunk` rejects (spec/42_chunk.md rules R164, R166, R172). The bytes are laid out as a length field, four type
bytes and the rest, and the tests come in their order: the letters, the length against the rest, and last the checksum
(`parseChunk_fields`). -/

namespace Sys2Proof.Machine

open Sys2Proof.Statements (FourLetters be)

/-! ### The first eight bytes -/

theorem slice_lengthField (l : Word) (t : TypeCode) (r : List Byte) : slice (be32 l ++ typeBytes t ++ r) 0 4 = be32 l :=
  slice_append_mid [] (be32 l) (typeBytes t ++ r) rfl rfl

theorem slice_typeField (l : Word) (t : TypeCode) (r : List Byte) :
    slice (be32 l ++ typeBytes t ++ r) 4 8 = typeBytes t :=
  slice_append_mid (be32 l) (typeBytes t) r rfl rfl

/-- Any four bytes are the length field of the number they read as (rule R13). -/
theorem bytes_eq_be32 (l0 l1 l2 l3 : Byte) : ∃ l : Word, [l0, l1, l2, l3] = be32 l ∧ l.toNat = be l0 l1 l2 l3 :=
  ⟨_, (be32_be32dec l0 l1 l2 l3).symm, be32dec_toNat l0 l1 l2 l3⟩

/-! ### The outcomes of the tests -/

/-- Rule R164 step 1. -/
theorem parseChunk_of_length_lt {s : List Byte} (h : s.length < 12) : parseChunk s = .error .truncated := if_pos h

section
variable {l : Word} {t : TypeCode} {r : List Byte}

/-- Rules R164 step 3, R166: a bad type wins over a length field that is too large. -/
theorem parseChunk_of_not_fourLetters (hr : 4 ≤ r.length) (ht : ¬ FourLetters t) :
    parseChunk (be32 l ++ typeBytes t ++ r) = .error .invalidTypeCode := by
  have h12 : ¬ (be32 l ++ typeBytes t ++ r).length < 12 := by simp; omega
  rw [parseChunk, if_neg h12, slice_typeField, typeOfBytes_of_not_fourLetters ht]

/-- Rules R164 step 4, R167: the sum `8 + L + 4` is exact, so a length field however large is too much for a shorter rest. -/
theorem parseChunk_of_rest_lt (hr : 4 ≤ r.length) (ht : FourLetters t) (hl : r.length < l.toNat + 4) :
    parseChunk (be32 l ++ typeBytes t ++ r) = .error .truncated := by
  have hlen : (be32 l ++ typeBytes t ++ r).length = 8 + r.length := by simp; omega
  rw [parseChunk, if_neg (by omega), slice_typeField, slice_lengthField, be32dec_be32, typeOfBytes_of_fourLetters ht]
  exact if_pos (by omega)

end

/-- Rule R164 step 6, for a frame alone in the span: all that is left to go wrong is the checksum. -/
theorem parseChunk_of_crc_ne {t : TypeCode} {d : List Byte} {k : Word} (ht : FourLetters t) (hd : d.length ≤ 2 ^ 32 - 1)
    (hk : crc32 (typeBytes t ++ d) ≠ k) :
    parseChunk (be32 (BitVec.ofNat 32 d.length) ++ typeBytes t ++ d ++ be32 k) = .error .checksumMismatch := by
  have h := parseChunk_fields (k := k) [] (fourLetters_iff.1 ht) (ofNat_length hd).symm
  rwa [List.append_nil, if_neg hk] at h

/-- Settles O40: the outcomes of the tests, for bytes read as the fields they are. -/
theorem parseChunkFollowsTheSixSteps : Obligations.ParseChunkFollowsTheSixSteps := by
  refine ⟨fun _ => parseChunk_of_length_lt, fun l0 l1 l2 l3 t rest hr => ?_⟩
  obtain ⟨l, hl, hln⟩ := bytes_eq_be32 l0 l1 l2 l3
  rw [hl, ← hln]
  refine ⟨parseChunk_of_not_fourLetters hr, parseChunk_of_rest_lt hr, fun d x k0 k1 k2 k3 ht hrest hd => ?_⟩
  obtain ⟨k, hk, hkn⟩ := bytes_eq_be32 k0 k1 k2 k3
  have hbytes : be32 l ++ typeBytes t ++ rest = be32 l ++ typeBytes t ++ d ++ be32 k ++ x := by
    simp only [hrest, hk, List.append_assoc]
  rw [hbytes, parseChunk_fields x (fourLetters_iff.1 ht) hd, ← hkn, ← hd]
  refine ⟨fun hne => if_neg (mt (congrArg BitVec.toNat) hne), fun heq => ?_⟩
  cases BitVec.eq_of_toNat_eq heq
  exact if_pos rfl

/-! ### Damage to a frame -/

/-- Rule R131 for a data byte: the bytes before it are the type and the data up to it. -/
theorem crc32_ne_of_data_byte_ne (t : TypeCode) (p q : List Byte) {a b : Byte} (hab : a ≠ b) :
    crc32 (typeBytes t ++ (p ++ a :: q)) ≠ crc32 (typeBytes t ++ (p ++ b :: q)) := by
  simpa only [List.append_assoc] using crc32_ne_of_byte_ne (typeBytes t ++ p) q hab

/-- Rule R131 for a type byte: the bytes after it are the rest of the type and the data. -/
theorem crc32_ne_of_type_byte_ne {t u : TypeCode} {p q : List Byte} {a b : Byte} (ht : typeBytes t = p ++ a :: q)
    (hu : typeBytes u = p ++ b :: q) (hab : a ≠ b) (d : List Byte) :
    crc32 (typeBytes t ++ d) ≠ crc32 (typeBytes u ++ d) := by
  rw [ht, hu]
  simpa only [List.append_assoc, List.cons_append] using crc32_ne_of_byte_ne p (q ++ d) hab

/-- Settles O43: a changed byte changes the computed checksum, a changed checksum field the stored one; the other two rows are
tested before the checksum. -/
theorem damagedFramesAreRejected : Obligations.DamagedFramesAreRejected := by
  intro t d ht hd
  have hrest (k : Word) : (d ++ be32 k).length = d.length + 4 := List.length_append
  refine ⟨fun p q a b hdata hab => ?_, fun u p q a b htb hub hab hu => ?_, fun u hu => ?_, fun v hv => ?_, fun n hn => ?_⟩
  · subst hdata
    have hlen : (p ++ a :: q).length = (p ++ b :: q).length := by simp
    rw [hlen] at hd ⊢
    exact parseChunk_of_crc_ne ht hd (crc32_ne_of_data_byte_ne t p q hab.symm)
  · exact parseChunk_of_crc_ne hu hd (crc32_ne_of_type_byte_ne hub htb hab.symm d)
  · rw [List.append_assoc]
    exact parseChunk_of_not_fourLetters (by rw [hrest]; omega) hu
  · exact parseChunk_of_crc_ne ht hd hv.symm
  · rw [List.append_assoc]
    exact parseChunk_of_rest_lt (by rw [hrest]; omega) ht (by rw [hrest]; omega)

end Sys2Proof.Machine
end

section
/-! The commands of the chunk unit (spec/42_chunk.md rules R163, R165, R168) and the round trip through the buffers that they
make together (rule R171). -/

namespace Sys2Proof.Machine

open Sys2Proof.Statements (FourLetters GoodChunk)

/-- Settles O21: no type, too long for the length field, too long for `CAP_DATA`, or composed. -/
theorem chNewComposesAChunk : Obligations.ChNewComposesAChunk := fun a _ =>
  ⟨decode_encode (.chNew a), fun hnone => (Ends.chNewNone a (.inl hnone)).exec_eq, fun _ ht =>
    ⟨fun hlong => (Ends.chNewNone a (.inr hlong)).exec_eq, fun hl hover => (Ends.chNewCap a ht hl hover).exec_eq,
      fun hl hc => (Ends.chNew a ht hl hc).exec_eq⟩⟩

/-- Settles O22: the error of the parse, or its chunk against `CAP_DATA`. -/
theorem chParseTakesOneFrame : Obligations.ChParseTakesOneFrame := fun a _ =>
  ⟨decode_encode (.chParse a), fun _ hp => (Ends.chParseBad a hp).exec_eq, fun _ _ hp =>
    ⟨fun hover => (Ends.chParseCap a hp hover).exec_eq, fun hc => (Ends.chParse a hp hc).exec_eq⟩⟩

/-- Settles O23: no chunk, a frame that does not fit `CAP_BUF`, or the frame. -/
theorem chSerWritesTheFrame : Obligations.ChSerWritesTheFrame := fun a _ =>
  ⟨decode_encode (.chSer a), fun hnone => (Ends.chSerEmpty a hnone).exec_eq, fun _ hw =>
    ⟨fun hover => (Ends.chSerCap a hw (exceeds_eq_true_iff_over.2 hover)).exec_eq,
      fun hfits => (Ends.chSer a hw (Bool.eq_false_iff.2 (mt exceeds_eq_true_iff_over.1 hfits))).exec_eq⟩⟩

/-! ### The round trip -/

/-- Inversion: a command that leaves `ERR = 0` has ended ok. -/
theorem done_of_exec {i : Instr} {s t : State} (h : exec i s = .next t) (herr : t.err = 0#3) :
    ∃ f u, Ends s i (.done f u) ∧ t = (Ending.done f u).state s := by
  obtain ⟨e, he, rfl⟩ := ends_of_exec h
  obtain ⟨f, u, rfl⟩ := Ending.eq_done_of_err herr
  exact ⟨f, u, he, rfl⟩

theorem goodChunk_mkChunk {t : TypeCode} {d : List Byte} (ht : FourLetters t) (hd : d.length ≤ 2 ^ 32 - 1) :
    GoodChunk (mkChunk t d) := ⟨ht, rfl, hd⟩

/-- Rules R161, R163: what `CH.NEW` leaves in `W` is a good chunk that fits `CAP_DATA`. -/
theorem chNew_leaves_goodChunk {s a : State} {x : Word} (hs : ∀ t, s.t = some t → FourLetters t)
    (h : exec (.chNew x) s = .next a) (herr : a.err = 0#3) :
    ∃ c, a.w = some c ∧ GoodChunk c ∧ c.data.length ≤ a.cfg.capData := by
  obtain ⟨f, u, he, rfl⟩ := done_of_exec h herr
  cases he with
  | chNew _ ht hl hc => exact ⟨_, rfl, goodChunk_mkChunk (hs _ ht) hl, hc⟩

/-- Rule R168: `CH.SER` leaves the frame of `W` in `OB`, and the parameters and `W` as they were. -/
theorem chSer_leaves_frame {a b : State} {x : Word} {c : Chunk} (hw : a.w = some c) (h : exec (.chSer x) a = .next b)
    (herr : b.err = 0#3) : b.ob = frame c ∧ b.cfg = a.cfg := by
  obtain ⟨f, u, he, rfl⟩ := done_of_exec h herr
  cases he with
  | chSer _ hw' hc =>
    cases hw.symm.trans hw'
    exact ⟨rfl, rfl⟩

/-- Rules R165, R171: `CH.PARSE` on the frame of a good chunk, loaded alone, takes the chunk. -/
theorem exec_chParse_frame {s : State} {c : Chunk} (x : Word) (hspan : span s = frame c) (hc : GoodChunk c)
    (hcap : c.data.length ≤ s.cfg.capData) :
    exec (.chParse x) s =
      .next ((Ending.done false { w := some (some c), cur := some (s.cur + (frame c).length) }).state s) := by
  have hparse : parseChunk (span s) = .ok (c, (frame c).length) := by
    rw [hspan, frame_length]
    simpa only [List.append_nil] using parseChunk_frame_append hc []
  exact (Ends.chParse x hparse hcap).exec_eq

/-- Settles O42: the composed chunk is good, its frame is what is loaded, and a good chunk's frame parses to the chunk. -/
theorem composedChunkSurvivesTheWire : Obligations.ComposedChunkSurvivesTheWire := by
  intro s a b hs hnew haerr hser hberr
  obtain ⟨c, hw, hc, hcap⟩ := chNew_leaves_goodChunk hs hnew haerr
  obtain ⟨hob, hcfg⟩ := chSer_leaves_frame hw hser hberr
  refine ⟨_, exec_chParse_frame 0#32 hob hc (hcfg ▸ hcap), rfl, hw.symm, rfl, ?_⟩
  rw [hob]
  exact Nat.zero_add _

end Sys2Proof.Machine
end

section
/-! The container on the wire (spec/43_container.md rules R181, R183 to R185, R199). The parse loop has three cases: no byte
left, a failed chunk parse, a parsed chunk in front of the rest. Its equations and its induction are stated in these cases
once, with no fuel; a good chunk's frame is the third case, and the list of frames follows by induction. -/

namespace Sys2Proof.Machine

open Sys2Proof.Statements (GoodChunk)

/-! ### The parse loop, case by case -/

theorem parseFrames_nil : parseFrames [] = .ok [] := rfl

/-- Rule R181 step 2, the failed chunk parse. -/
theorem parseFrames_of_error {s : List Byte} {k : ErrorKind} (hs : s ≠ []) (h : parseChunk s = .error k) :
    parseFrames s = .error k := by
  cases s with
  | nil => exact absurd rfl hs
  | cons b bs => simp only [parseFrames, List.length_cons, parseFramesFuel, h]

/-- Rule R181 step 2, the parsed chunk: it stands in front of what the rest gives. -/
theorem parseFrames_of_ok {s : List Byte} {c : Chunk} {n : Nat} (h : parseChunk s = .ok (c, n)) :
    parseFrames s = (parseFrames (s.drop n)).map (c :: ·) := by
  obtain ⟨h12, hn, -⟩ := parseChunk_ok h
  cases s with
  | nil => rw [List.length_nil] at hn; omega
  | cons b bs =>
    have hrest : ((b :: bs).drop n).length ≤ bs.length := by simp only [List.length_drop, List.length_cons]; omega
    simp only [parseFrames, List.length_cons, parseFramesFuel, h]
    rw [parseFramesFuel_eq hrest, ← parseFrames]
    cases parseFrames ((b :: bs).drop n) <;> rfl

/-- The induction along the loop: a parsed chunk takes bytes off, so what holds after its frame is a premise (rule R184). -/
theorem parseFrames_induction {P : List Byte → Prop} (nil : P [])
    (error : ∀ s k, s ≠ [] → parseChunk s = .error k → P s)
    (ok : ∀ s c n, parseChunk s = .ok (c, n) → P (s.drop n) → P s) (s : List Byte) : P s := by
  induction hl : s.length using Nat.strong_induction_on generalizing s with
  | _ m ih =>
    by_cases hs : s = []
    · exact hs ▸ nil
    · cases hp : parseChunk s with
      | error k => exact error s k hs hp
      | ok r =>
        obtain ⟨h12, hn, -⟩ := parseChunk_ok hp
        exact ok s r.1 r.2 hp (ih _ (by rw [← hl, List.length_drop]; omega) _ rfl)

theorem map_cons_eq_ok {r : Except ErrorKind (List Chunk)} {c : Chunk} {l : List Chunk} (h : r.map (c :: ·) = .ok l) :
    ∃ m, r = .ok m ∧ l = c :: m := by
  cases r with
  | error k => cases h
  | ok m => cases h; exact ⟨m, rfl, rfl⟩

/-! ### The signature -/

theorem parseContainer_of_bad_signature {s : List Byte} (h : s.length < 8 ∨ s.take 8 ≠ sig) :
    parseContainer s = .error .badSignature := if_pos h

theorem parseContainer_sig_append (r : List Byte) : parseContainer (sig ++ r) = parseFrames r := if_neg (by simp [slice, sig])

/-- Settles O44: the signature test, and the three cases of the loop. -/
theorem parseContainerIsTheSpecsLoop : Obligations.ParseContainerIsTheSpecsLoop := by
  refine ⟨fun _ => parseContainer_of_bad_signature, parseContainer_sig_append, parseFrames_nil,
    fun _ _ => parseFrames_of_error, fun s c n h => ⟨fun k hk => ?_, fun l hl => ?_⟩⟩
  · rw [parseFrames_of_ok h, hk]; rfl
  · rw [parseFrames_of_ok h, hl]; rfl

/-! ### Parse after serialize -/

/-- Rule R89 in the loop: a good chunk's frame gives the chunk, and the loop goes on right after the frame. -/
theorem parseFrames_frame_append {c : Chunk} (hc : GoodChunk c) (x : List Byte) :
    parseFrames (frame c ++ x) = (parseFrames x).map (c :: ·) := by
  rw [parseFrames_of_ok (parseChunk_frame_append hc x), ← frame_length, List.drop_left]

/-- The frames of good chunks give the chunks, in front of what the bytes after them give. -/
theorem parseFrames_serFrames_append {l : List Chunk} (hl : ∀ c ∈ l, GoodChunk c) (x : List Byte) :
    parseFrames (serFrames l ++ x) = (parseFrames x).map (l ++ ·) := by
  induction l with
  | nil => show parseFrames x = _; cases parseFrames x <;> rfl
  | cons c l ih =>
    obtain ⟨hc, hl⟩ := List.forall_mem_cons.1 hl
    rw [serFrames_cons, List.append_assoc, parseFrames_frame_append hc, ih hl]
    cases parseFrames x <;> rfl

theorem parseContainer_serContainer_append {l : List Chunk} (hl : ∀ c ∈ l, GoodChunk c) (x : List Byte) :
    parseContainer (serContainer l ++ x) = (parseFrames x).map (l ++ ·) := by
  rw [serContainer, List.append_assoc, parseContainer_sig_append, parseFrames_serFrames_append hl]

/-- Settles O46: nothing follows the frames. -/
theorem serializedContainersParseBack : Obligations.SerializedContainersParseBack := by
  intro l hl
  simpa [parseFrames_nil, Except.map] using parseContainer_serContainer_append hl []

/-! ### Serialize after parse -/

/-- Rule R89 in the loop, the other way: the frames of the parsed chunks are the bytes, and the chunks are good. -/
theorem serFrames_of_parseFrames {s : List Byte} {l : List Chunk} (h : parseFrames s = .ok l) :
    serFrames l = s ∧ ∀ c ∈ l, GoodChunk c := by
  induction s using parseFrames_induction generalizing l with
  | nil => cases h; exact ⟨rfl, nofun⟩
  | error s k hs hk => rw [parseFrames_of_error hs hk] at h; cases h
  | ok s c n hp ih =>
    rw [parseFrames_of_ok hp] at h
    obtain ⟨m, hm, rfl⟩ := map_cons_eq_ok h
    obtain ⟨hbytes, hgood⟩ := ih hm
    refine ⟨?_, List.forall_mem_cons.2 ⟨goodChunk_of_parseChunk hp, hgood⟩⟩
    rw [serFrames_cons, frame_of_parseChunk hp, hbytes, List.take_append_drop]

/-- Rule R185: the signature and the frames, by their sizes. -/
theorem serContainer_length (l : List Chunk) :
    (serContainer l).length = 8 + (l.map fun c => 12 + c.data.length).sum := by
  simp only [serContainer, serFrames, List.length_append, List.length_flatMap, frame_length]
  rfl

/-- Rule R184: at least 12 bytes to each chunk. -/
theorem le_serContainer_length (l : List Chunk) : 8 + 12 * l.length ≤ (serContainer l).length := by
  have h : l.length * 12 ≤ (l.map fun c => 12 + c.data.length).sum := by simp [List.sum_map_add]
  rw [serContainer_length]; omega

theorem serContainer_of_parseContainer {s : List Byte} {l : List Chunk} (h : parseContainer s = .ok l) :
    serContainer l = s ∧ ∀ c ∈ l, GoodChunk c := by
  obtain ⟨-, hsig, hframes⟩ := parseContainer_ok h
  obtain ⟨hbytes, hgood⟩ := serFrames_of_parseFrames hframes
  exact ⟨by rw [serContainer, hbytes, ← hsig, List.take_append_drop], hgood⟩

/-- Settles O47: the bytes are the signature and the frames of the result, which are at least 12 bytes each. -/
theorem parsedContainersSerializeBack : Obligations.ParsedContainersSerializeBack := by
  intro s l h
  obtain ⟨hbytes, hgood⟩ := serContainer_of_parseContainer h
  exact ⟨hbytes, hgood, hbytes ▸ le_serContainer_length l⟩

/-! ### Failures -/

/-- Rule R166: the errors that `parse_chunk` can give. -/
theorem parseChunk_error_mem {s : List Byte} {k : ErrorKind} (h : parseChunk s = .error k) :
    k ∈ [.truncated, .invalidTypeCode, .checksumMismatch] := by
  unfold parseChunk at h
  split at h
  · cases h; simp
  · dsimp only at h
    split at h
    · cases h; simp
    · split at h
      · cases h; simp
      · split at h
        · cases h
        · cases h; simp

/-- The loop adds no error of its own. -/
theorem parseChunk_of_parseFrames_error {s : List Byte} {k : ErrorKind} (h : parseFrames s = .error k) :
    ∃ x, parseChunk x = .error k := by
  induction s using parseFrames_induction with
  | nil => cases h
  | error s j hs hj =>
    rw [parseFrames_of_error hs hj] at h
    cases h
    exact ⟨s, hj⟩
  | ok s c n hp ih =>
    apply ih
    rw [parseFrames_of_ok hp] at h
    cases hr : parseFrames (s.drop n) with
    | error j => rw [hr] at h; cases h; rfl
    | ok m => rw [hr] at h; cases h

theorem parseContainer_error_mem {s : List Byte} {k : ErrorKind} (h : parseContainer s = .error k) :
    k ∈ [.badSignature, .truncated, .invalidTypeCode, .checksumMismatch] := by
  unfold parseContainer at h
  split at h
  · cases h; exact List.mem_cons_self
  · obtain ⟨x, hx⟩ := parseChunk_of_parseFrames_error h
    exact List.mem_cons_of_mem _ (parseChunk_error_mem hx)

/-- Rule R183: the failure after whole frames is the one reported. -/
theorem parseContainer_of_error_after {l : List Chunk} {x : List Byte} {k : ErrorKind} (hl : ∀ c ∈ l, GoodChunk c)
    (hx : x ≠ []) (h : parseChunk x = .error k) : parseContainer (serContainer l ++ x) = .error k := by
  rw [parseContainer_serContainer_append hl, parseFrames_of_error hx h]; rfl

/-- Settles O45: 1 to 11 bytes are a failed chunk parse too (rule R88). -/
theorem firstFailureIsReported : Obligations.FirstFailureIsReported :=
  ⟨fun _ _ _ => parseContainer_of_error_after,
    fun _ _ hl h1 h11 => parseContainer_of_error_after hl (List.length_pos_iff.1 h1)
      (parseChunk_of_length_lt (Nat.lt_succ_of_le h11)),
    fun _ _ => parseContainer_error_mem⟩

end Sys2Proof.Machine
end

section
/-! The lookup in the store (spec/43_container.md rules R187, R188): the first match splits the list, with no match before it. -/

namespace Sys2Proof.Machine

open Sys2Proof.Statements (FirstMatch FourLetters GoodChunk NoMatch)

/-- Rule R188 `absent`. -/
theorem findFirst_eq_none_iff {l : List Chunk} {b : List Byte} : findFirst l b = none ↔ NoMatch l b := by
  induction l with
  | nil => simp [findFirst, NoMatch]
  | cons d l ih =>
    rw [findFirst_cons, NoMatch, List.forall_mem_cons, ← NoMatch, ← ih]
    split
    · next hd => simp [hd]
    · next hd => simp [hd]

/-- Rules R28, R188: a good chunk's type is four letters, so no other string matches. -/
theorem noMatch_of_not_fourLetters {l : List Chunk} {b : List Byte} (hl : ∀ c ∈ l, GoodChunk c)
    (hb : ∀ u, b = typeBytes u → ¬ FourLetters u) : NoMatch l b := fun c hc hbytes => by
  obtain ⟨ht, -⟩ := hl c hc
  exact hb c.type hbytes.symm ht

/-- Settles O49: the lookup answers the first match, or that there is none. -/
theorem findFirstIsTheLeastIndex : Obligations.FindFirstIsTheLeastIndex :=
  ⟨fun _ _ _ _ => findFirst_eq_some_iff, fun _ _ => findFirst_eq_none_iff,
    fun _ _ hl hb => findFirst_eq_none_iff.2 (noMatch_of_not_fourLetters hl hb)⟩

/-- The first match as a split of the list: it stands after chunks of which none matches. -/
theorem firstMatch_iff_split {l : List Chunk} {b : List Byte} {j : Nat} {c : Chunk} :
    FirstMatch l b j c ↔
      ∃ pre post, l = pre ++ c :: post ∧ pre.length = j ∧ typeBytes c.type = b ∧ NoMatch pre b := by
  constructor
  · rintro ⟨hj, hc, hlt⟩
    obtain ⟨hjl, hget⟩ := List.getElem?_eq_some_iff.1 hj
    refine ⟨l.take j, l.drop (j + 1), ?_, List.length_take_of_le hjl.le, hc, fun d hd => ?_⟩
    · rw [← hget, ← List.drop_eq_getElem_cons hjl, List.take_append_drop]
    · obtain ⟨k, hk, rfl⟩ := List.mem_take_iff_getElem.1 hd
      exact hlt k _ (by omega) (List.getElem?_eq_getElem _)
  · rintro ⟨pre, post, rfl, rfl, hc, hpre⟩
    refine ⟨by simp, hc, fun k d hk hd => hpre d ?_⟩
    rw [List.getElem?_append_left hk] at hd
    exact List.mem_of_getElem? hd

/-- Taking out the first match leaves what stood before and after it. -/
theorem eraseIdx_length_append_cons (pre post : List Chunk) (c : Chunk) :
    (pre ++ c :: post).eraseIdx pre.length = pre ++ post := by
  rw [List.eraseIdx_append_of_length_le (Nat.le_refl _), Nat.sub_self, List.eraseIdx_cons_zero]

/-- Rules R186, R200: a chunk appended where no chunk has its type is the first match, at the last index. -/
theorem firstMatch_append_singleton {l : List Chunk} {c : Chunk} (h : NoMatch l (typeBytes c.type)) :
    FirstMatch (l ++ [c]) (typeBytes c.type) l.length c := firstMatch_iff_split.2 ⟨l, [], rfl, rfl, rfl, h⟩

end Sys2Proof.Machine
end

section
/-! The commands of the container unit (spec/43_container.md rules R182, R186, R189, R192, R195, R198): each is the case of
`Ends` whose guards the statement gives, with the capacities of rule R8 read as `Over`. -/

namespace Sys2Proof.Machine

open Sys2Proof.Statements (FirstMatch NoMatch Over)

theorem exceeds_eq_false_iff_not_over {n : Nat} {c : Cap} : exceeds n c = false ↔ ¬ Over n c := by
  rw [← exceeds_eq_true_iff_over, Bool.not_eq_true]

/-- The three tests of rule R182, passed. -/
theorem storeOverflow_eq_false_iff_not_over {cfg : Config} {l : List Chunk} :
    storeOverflow cfg l = false ↔
      ¬ Over l.length cfg.capChunks ∧ (∀ c ∈ l, c.data.length ≤ cfg.capData) ∧
      ¬ Over (l.map fun c => c.data.length).sum cfg.capStore := by
  rw [storeOverflow_eq_false, exceeds_eq_false_iff_not_over, exceeds_eq_false_iff_not_over, totalData]

/-- The three tests of rule R182, one of them failed. -/
theorem storeOverflow_eq_true_iff_over {cfg : Config} {l : List Chunk} :
    storeOverflow cfg l = true ↔
      Over l.length cfg.capChunks ∨ (∃ c ∈ l, cfg.capData < c.data.length) ∨
      Over (l.map fun c => c.data.length).sum cfg.capStore := by
  simp only [storeOverflow, Bool.or_eq_true, List.any_eq_true, decide_eq_true_eq, exceeds_eq_true_iff_over, totalData, or_assoc]

/-- Settles O24: the error of the parse, a list that does not fit, or the list. -/
theorem ctParseReplacesTheStore : Obligations.CtParseReplacesTheStore := fun a _ =>
  ⟨decode_encode (.ctParse a), fun _ hp => (Ends.ctParseBad a hp).exec_eq, fun _ hp =>
    ⟨fun hover => (Ends.ctParseCap a hp (storeOverflow_eq_true_iff_over.2 hover)).exec_eq,
      fun hn hd ht => (Ends.ctParse a hp (storeOverflow_eq_false_iff_not_over.2 ⟨hn, hd, ht⟩)).exec_eq⟩⟩

/-- Rule R186, the outcome ok. -/
theorem exec_ctAppend {s : State} {c : Chunk} (a : Word) (hw : s.w = some c)
    (hn : ¬ Over (s.cs.length + 1) s.cfg.capChunks)
    (hd : ¬ Over ((s.cs.map fun c => c.data.length).sum + c.data.length) s.cfg.capStore) :
    exec (.ctAppend a) s = .next { s with cs := s.cs ++ [c], err := 0#3, rsn := 0#2, found := false } :=
  (Ends.ctAppend a hw (exceeds_eq_false_iff_not_over.2 hn) (exceeds_eq_false_iff_not_over.2 hd)).exec_eq

/-- Settles O25: no chunk, no room, or appended. -/
theorem ctAppendAddsAtTheTail : Obligations.CtAppendAddsAtTheTail := fun a _ =>
  ⟨decode_encode (.ctAppend a), fun hnone => (Ends.ctAppendEmpty a hnone).exec_eq, fun _ hw =>
    ⟨fun hover => (Ends.ctAppendCap a hw (hover.imp exceeds_eq_true_iff_over.2 exceeds_eq_true_iff_over.2)).exec_eq,
      exec_ctAppend a hw⟩⟩

/-- Settles O26: the lookup answers the first match, or that there is none. -/
theorem ctFindReturnsTheFirstMatch : Obligations.CtFindReturnsTheFirstMatch := fun a _ =>
  ⟨decode_encode (.ctFind a), fun _ _ h => (Ends.ctFind a (findFirst_eq_some_iff.2 h)).exec_eq,
    fun h => (Ends.ctFindAbsent a (findFirst_eq_none_iff.2 h)).exec_eq⟩

/-- Settles O27: the store without the index is what stands before it and after it. -/
theorem ctRemoveTakesOutTheFirstMatch : Obligations.CtRemoveTakesOutTheFirstMatch := by
  refine fun a s => ⟨decode_encode (.ctRemove a), fun i c h => ?_,
    fun h => (Ends.ctRemoveAbsent a (findFirst_eq_none_iff.2 h)).exec_eq⟩
  have ⟨hget, _, _⟩ := h
  have ⟨hi, _⟩ := List.getElem?_eq_some_iff.1 hget
  rw [← List.eraseIdx_eq_take_drop_succ]
  exact ⟨(Ends.ctRemove a (findFirst_eq_some_iff.2 h)).exec_eq, List.length_eraseIdx_add_one hi⟩

/-- Settles O28: the index is past the end, or a chunk is there. -/
theorem ctGetCopiesByIndex : Obligations.CtGetCopiesByIndex := fun a _ =>
  ⟨decode_encode (.ctGet a), fun hpast => (Ends.ctGetPast a (List.getElem?_eq_none hpast)).exec_eq,
    fun _ hc => (Ends.ctGet a hc).exec_eq⟩

/-- Settles O29: the size is the signature's and the frames', and it fits `CAP_BUF` or not. -/
theorem ctSerWritesTheContainer : Obligations.CtSerWritesTheContainer := by
  intro a s
  rw [← serContainer_length]
  exact ⟨decode_encode (.ctSer a), fun hover => (Ends.ctSerCap a (exceeds_eq_true_iff_over.2 hover)).exec_eq,
    fun hfits => (Ends.ctSer a (exceeds_eq_false_iff_not_over.2 hfits)).exec_eq⟩

/-! ### Several commands -/

/-- Settles O48: the parsed list fits the store, and its serialized form is the loaded buffer, which fits `CAP_BUF`. -/
theorem loadParseSerializeGivesTheBuffer : Obligations.LoadParseSerializeGivesTheBuffer := by
  intro st s l hbuf hp hn hd ht
  obtain ⟨hser, -⟩ := serContainer_of_parseContainer hp
  have hfits : exceeds s.length st.cfg.capBuf = false := exceeds_eq_false_iff_not_over.2 hbuf
  have hout : exceeds (serContainer l).length st.cfg.capBuf = false := by rwa [hser]
  have hparse := Ends.ctParse (s := setInput s 0 st) 0#32 (by rwa [span_setInput_zero])
    (storeOverflow_eq_false_iff_not_over.2 ⟨hn, hd, ht⟩)
  rw [runActions_load hfits, runActions_command hparse.exec_eq]
  exact ⟨_, runActions_command (Ends.ctSer 0#32 hout).exec_eq [], rfl, rfl, hser, rfl, rfl, rfl⟩

/-- Settles O50: the appended chunk is the first match at the last index, and taking that index out gives the store back. -/
theorem appendLookUpRemove : Obligations.AppendLookUpRemove := by
  intro s c hw hnone hn hd
  have hfirst := firstMatch_append_singleton hnone
  refine ⟨_, exec_ctAppend 0#32 hw hn hd, by simpa using hfirst, fun b hcs hspan => ?_⟩
  have hfind : findFirst b.cs (span b) = some (s.cs.length, c) := by
    rw [hcs, hspan]; exact findFirst_eq_some_iff.2 hfirst
  have hrest : b.cs.eraseIdx s.cs.length = s.cs := by
    rw [hcs]; exact (eraseIdx_length_append_cons s.cs [] c).trans (List.append_nil _)
  exact ⟨⟨_, (Ends.ctFind 0#32 hfind).exec_eq, rfl, rfl, hcs⟩,
    ⟨_, (Ends.ctRemove 0#32 hfind).exec_eq, rfl, rfl, hrest, hrest.symm ▸ hnone⟩⟩

/-- Settles O51: an ending ok has found, and the first match splits the store. -/
theorem removalKeepsTheOrderOfTheRest : Obligations.RemovalKeepsTheOrderOfTheRest := by
  intro a s t h herr
  obtain ⟨f, u, he, rfl⟩ := done_of_exec h herr
  cases he with
  | @ctRemove _ j c hf =>
    obtain ⟨pre, post, hcs, rfl, hc, hpre⟩ := firstMatch_iff_split.1 (findFirst_eq_some_iff.1 hf)
    refine ⟨pre, post, c, hcs, ?_, rfl, hc, hpre⟩
    exact (congrArg (List.eraseIdx · pre.length) hcs).trans (eraseIdx_length_append_cons pre post c)

end Sys2Proof.Machine
end

section
/-! The commands of the system unit (spec/44_system.md rules R214, R215) and what every step takes from the host: a command
word, a load, a read (rules R63, R210 to R212, R217). -/

namespace Sys2Proof.Machine

open Sys2Proof.Statements (Over)

/-! ### The commands -/

/-- Settles O14: every command ends in some way, and each way gives a next state. -/
theorem everyCommandCompletes : Obligations.EveryCommandCompletes := by
  intro i s
  obtain ⟨e, he⟩ := ends_total i s
  exact ⟨e.state s, he.exec_eq⟩

/-- Settles O15: `NOP` ends ok and writes nothing beside the response. -/
theorem nopClearsTheResponseOnly : Obligations.NopClearsTheResponseOnly :=
  ⟨decode_encode (.nop 0#32), fun a _ => ⟨decode_encode (.nop a), (Ends.nop a).exec_eq⟩⟩

/-- Settles O16: both end refused for their opcode. -/
theorem reservedOpcodesAreRefused : Obligations.ReservedOpcodesAreRefused := fun a _ =>
  ⟨decode_encode (.reservedE a), decode_encode (.reservedF a), (Ends.reservedE a).exec_eq, (Ends.reservedF a).exec_eq⟩

/-! ### One step, by the host's next action -/

section Actions

variable {s : State} {rest : List HostAction}

theorem step_of_issue {w : CmdWord} (h : s.pending = .issue w :: rest) :
    step s = exec (decode w) (setPending rest s) := by rw [step, takeAction_cons h]

theorem step_of_load {b : List Byte} (h : s.pending = .load b :: rest) :
    step s = hostLoad b (setPending rest s) := by rw [step, takeAction_cons h]

theorem step_of_read {p : ReadPort} (h : s.pending = .read p :: rest) :
    step s = .next (setPending rest s) := by rw [step, takeAction_cons h]; rfl

end Actions

/-- Settles O8: the word's decoding is the command it encodes. -/
theorem stepRunsTheDecodedCommand : Obligations.StepRunsTheDecodedCommand := by
  intro s w rest h
  refine ⟨step_of_issue h, fun i hw => ?_⟩
  rw [step_of_issue h, hw, decode_encode]
  rfl

/-! ### `HOST.LOAD`, whole and byte by byte -/

theorem hostLoad_of_exceeds {b : List Byte} {s : State} (h : exceeds b.length s.cfg.capBuf = true) :
    hostLoad b s = .refused .loadNotEnabled := if_pos h

theorem ibWrite_of_exceeds {s : State} (b : Byte) (h : exceeds (s.ib.length + 1) s.cfg.capBuf = true) :
    ibWrite s b = .refused .loadNotEnabled := if_pos h

/-- Rule R216: bytes that fit behind what `IB` holds are appended to it, and the cursor stays. -/
theorem ibWriteAll_of_fits {bs : List Byte} {s : State} (h : exceeds (s.ib.length + bs.length) s.cfg.capBuf = false) :
    ibWriteAll bs s = .next (setInput (s.ib ++ bs) s.cur s) := by
  induction bs generalizing s with
  | nil => rw [List.append_nil]; rfl
  | cons b bs ih =>
    have hfirst : exceeds (s.ib.length + 1) s.cfg.capBuf = false := exceeds_mono (by simp) h
    have hrest : exceeds ((s.ib ++ [b]).length + bs.length) s.cfg.capBuf = false := by
      simpa [Nat.add_assoc, Nat.add_comm 1] using h
    rw [ibWriteAll_cons bs (ibWrite_eq_next.2 ⟨hfirst, rfl⟩), ih hrest, setInput_ib, List.append_assoc]
    rfl

/-- Log entry 24: of more bytes than fit, one finds `IB` full, and its write has no step. -/
theorem ibWriteAll_of_exceeds {bs : List Byte} {s : State} (hs : exceeds s.ib.length s.cfg.capBuf = false)
    (h : exceeds (s.ib.length + bs.length) s.cfg.capBuf = true) : ibWriteAll bs s = .refused .loadNotEnabled := by
  induction bs generalizing s with
  | nil => rw [List.length_nil, Nat.add_zero, hs] at h; cases h
  | cons b bs ih =>
    cases hfirst : exceeds (s.ib.length + 1) s.cfg.capBuf with
    | true => rw [ibWriteAll, ibWrite_of_exceeds b hfirst]
    | false =>
      rw [ibWriteAll_cons bs (ibWrite_eq_next.2 ⟨hfirst, rfl⟩)]
      apply ih
      · simpa using hfirst
      · simpa [Nat.add_assoc, Nat.add_comm 1] using h

/-- Settles O9: the stream starts from an empty buffer, so its bytes fit exactly when the load does. -/
theorem hostLoadReplacesTheInputBuffer : Obligations.HostLoadReplacesTheInputBuffer := by
  intro s b rest h
  have hempty : (ibLoad s).ib.length + b.length = b.length := Nat.zero_add _
  refine ⟨fun hfits => ?_, fun hover => ?_, fun hfits => ?_, fun hover => ?_⟩
  · rw [step_of_load h]
    exact hostLoad_eq_next.2 ⟨exceeds_eq_false_iff_not_over.2 hfits, rfl⟩
  · rw [step_of_load h]
    exact hostLoad_of_exceeds (exceeds_eq_true_iff_over.2 hover)
  · exact ibWriteAll_of_fits (by rw [hempty]; exact exceeds_eq_false_iff_not_over.2 hfits)
  · exact ibWriteAll_of_exceeds (exceeds_zero _) (by rw [hempty]; exact exceeds_eq_true_iff_over.2 hover)

end Sys2Proof.Machine
end

section
/-! What the read ports show (spec/44_system.md rules R212, R216): bytes of `OB` and of the data of `W` in range, 0 past the
end (spec/10_state.md rules R27, R34), and the registers on the wires of `reg_data`. -/

namespace Sys2Proof.Machine

/-! ### The bytes -/

theorem outByte_of_getElem? {s : State} {j : Nat} {b : Byte} (h : s.ob[j]? = some b) : outByte j s = b := by
  rw [outByte, List.getD_eq_getElem?_getD, h, Option.getD_some]

theorem outByte_of_length_le {s : State} {j : Nat} (h : s.ob.length ≤ j) : outByte j s = 0#8 :=
  List.getD_eq_default _ _ h

theorem wData_some {s : State} {c : Chunk} (h : s.w = some c) (j : Nat) : wData j s = c.data.getD j 0#8 := by
  rw [wData, h]

theorem wData_none {s : State} (h : s.w = none) (j : Nat) : wData j s = 0#8 := by rw [wData, h]

/-- Settles O11: a read is a step that only takes itself off the list; what it returns is the view of its port. -/
theorem hostReadsChangeNothing : Obligations.HostReadsChangeNothing := by
  refine ⟨fun s p rest h => step_of_read h, fun s n => rfl, fun s i b hb => ?_, fun s i hi => ?_,
    fun s c i b hw hb => ?_, fun s c i hw hi => ?_, fun s i hw => ?_⟩
  · rw [readPort, outByte_of_getElem? hb]
  · rw [readPort, outByte_of_length_le hi]; rfl
  · rw [readPort, wData_some hw, List.getD_eq_getElem?_getD, hb, Option.getD_some]
  · rw [readPort, wData_some hw, List.getD_eq_default _ _ hi]; rfl
  · rw [readPort, wData_none hw]; rfl

/-! ### `reg_data` -/

theorem regData_of_fits {s : State} {n : BitVec 4} (h : fitsWidth (readReg n s) (portWidth s.cfg .regData) = true) :
    regData n s = readReg n s := onWires_of_fits h

/-- Rule R38: every register but `NCHUNKS` is 32 or `AW` bits wide, or reads zero, so it fits `max(32, AW)` wires. -/
theorem fitsWidth_regData_of_regWidth {c : Config} {n : BitVec 4} {v : Nat} (hn : n ≠ 7#4)
    (h : fitsWidth v (regWidth c n) = true) : fitsWidth v (portWidth c .regData) = true := by
  rcases regNumber_cases n with hlow | rfl | rfl | rfl | rfl | hhigh
  · rw [regWidth, if_pos hlow] at h
    exact fitsWidth_atLeast_left c.aw (of_decide_eq_true h)
  · exact absurd rfl hn
  · exact fitsWidth_atLeast h
  · exact fitsWidth_atLeast h
  · exact fitsWidth_atLeast h
  · rw [regWidth, if_neg (by omega), if_neg (by omega), if_neg (by omega)] at h
    exact fitsWidth_atLeast_left c.aw (Nat.lt_of_lt_of_le (of_decide_eq_true h) (by decide))

theorem regData_of_ne_seven {s : State} {n : BitVec 4} (hs : s.Inv) (hn : n ≠ 7#4) : regData n s = readReg n s :=
  regData_of_fits (fitsWidth_regData_of_regWidth hn (readReg_fitsWidth hs n))

/-- Rule R31: fewer than `2^32` chunks fit the 32 wires that `reg_data` always has. -/
theorem regData_of_length_lt {s : State} (hs : s.Inv) (hc : s.cs.length < 2 ^ 32) (n : BitVec 4) :
    regData n s = readReg n s := by
  by_cases hn : n = 7#4
  · subst hn
    exact regData_of_fits (fitsWidth_atLeast_left s.cfg.aw hc)
  · exact regData_of_ne_seven hs hn

theorem portWidth_regData_of_bits {c : Config} {n : Nat} (h : c.aw = .bits n) :
    portWidth c .regData = .bits (max 32 n) := by rw [portWidth, h, widthAtLeast]

theorem portWidth_regData_of_unbounded {c : Config} (h : c.aw = .unbounded) : portWidth c .regData = .unbounded := by
  rw [portWidth, h, widthAtLeast]

/-! ### `ob_data` -/

theorem obData_of_fits {s : State} {a : Nat} (h : fitsWidth a s.cfg.aw = true) : obData a s = some (outByte a s) :=
  if_pos h

theorem obData_of_not_fits {s : State} {a : Nat} (h : fitsWidth a s.cfg.aw = false) : obData a s = none :=
  if_neg (Bool.eq_false_iff.1 h)

/-- Rules R8, R43: `OB` is within `CAP_BUF`, so each of its bytes has an address of `AW` bits. -/
theorem fitsWidth_aw_of_lt_obLen {s : State} {a : Nat} (hs : s.Inv) (ha : a < s.ob.length) :
    fitsWidth a s.cfg.aw = true := by
  obtain ⟨hcfg, -⟩ := State.inv_iff.1 hs
  obtain ⟨-, hob, -⟩ := (Memory.wf_iff s).1 hs.memory
  exact fitsWidth_aw hcfg (exceeds_mono (Nat.le_of_lt ha) hob)

theorem obData_of_getElem? {s : State} {a : Nat} {b : Byte} (hs : s.Inv) (h : s.ob[a]? = some b) :
    obData a s = some b := by
  obtain ⟨ha, -⟩ := List.getElem?_eq_some_iff.1 h
  rw [obData_of_fits (fitsWidth_aw_of_lt_obLen hs ha), outByte_of_getElem? h]

/-- Settles O10: the widths by the parameters, and each port's view where it fits. -/
theorem portsShowTheViewsInTheirWidths : Obligations.PortsShowTheViewsInTheirWidths := by
  refine ⟨fun c n h => ⟨portWidth_regData_of_bits h, h⟩, fun c h => ⟨portWidth_regData_of_unbounded h, h⟩,
    fun s => ⟨rfl, Bool.and_true⟩, fun s n => ⟨onWires_fits _ _ _, regData_of_fits⟩,
    fun s n hs => ⟨regData_of_ne_seven hs, fun hc => regData_of_length_lt hs hc n, fun haw => ?_⟩,
    fun s a => ⟨obData_of_not_fits, fun ha hlen => ?_⟩, fun s a b hs => obData_of_getElem? hs, fun s a => rfl⟩
  · exact regData_of_fits (portWidth_regData_of_unbounded haw ▸ fitsWidth_unbounded _)
  · rw [obData_of_fits ha, outByte_of_length_le hlen]

end Sys2Proof.Machine
end

section
/-! How a command's response fields tell the way it ended (spec/60_exceptions.md rules R222, R225, R229). The codes differ from
one another and the ending is determined by the state, so `ERR` and `RSN` after a command say which case of `Ends` it was;
the effect of an error and of a refusal is read off that case. -/

namespace Sys2Proof.Machine

/-! ### The codes -/

theorem errCode_injective : Function.Injective errCode := by
  intro k j
  cases k <;> cases j <;> decide

theorem rsnCode_injective : Function.Injective rsnCode := by
  intro q r
  cases q <;> cases r <;> decide

/-! ### From the response to the ending -/

/-- Inversion: a command that leaves `ERR = 7` was refused. -/
theorem refused_of_exec {i : Instr} {s t : State} (h : exec i s = .next t) (herr : t.err = errRefused) :
    ∃ r, Ends s i (.refused r) ∧ t = (Ending.refused r).state s := by
  obtain ⟨e, he, rfl⟩ := ends_of_exec h
  cases e with
  | done f u => exact absurd herr (show 0#3 ≠ errRefused by decide)
  | error k r => exact absurd herr (errCode_range k).2
  | refused r => exact ⟨r, he, rfl⟩

/-- Inversion: a command that leaves `ERR` at 1 to 6 ended with an error kind. -/
theorem error_of_exec {i : Instr} {s t : State} (h : exec i s = .next t) (herr : endedInError t) :
    ∃ k r, Ends s i (.error k r) ∧ t = (Ending.error k r).state s := by
  obtain ⟨e, he, rfl⟩ := ends_of_exec h
  obtain ⟨h0, h7⟩ := herr
  cases e with
  | done f u => exact absurd rfl h0
  | error k r => exact ⟨k, r, he, rfl⟩
  | refused r => exact absurd rfl h7

/-- The next state of a command is the one of any way in which it is known to end. -/
theorem Ends.state_eq_of_exec {i : Instr} {s t : State} {e : Ending} (he : Ends s i e) (h : exec i s = .next t) :
    t = e.state s := by
  rw [he.exec_eq] at h
  cases h
  rfl

/-- Rule R225: `ERR = 7` with a reason's code says that the command was refused for that reason. -/
theorem refused_iff_ends {i : Instr} {s t : State} (h : exec i s = .next t) (r : RefuseReason) :
    t.err = errRefused ∧ t.rsn = rsnCode r ↔ Ends s i (.refused r) := by
  constructor
  · rintro ⟨herr, hrsn⟩
    obtain ⟨q, he, rfl⟩ := refused_of_exec h herr
    exact rsnCode_injective hrsn ▸ he
  · intro he
    rw [he.state_eq_of_exec h]
    exact ⟨rfl, rfl⟩

/-- Rule R222: the code of a kind in `ERR` says that the command ended with that error. -/
theorem err_iff_ends {i : Instr} {s t : State} (h : exec i s = .next t) (k : ErrorKind) :
    t.err = errCode k ↔ ∃ r, Ends s i (.error k r) := by
  constructor
  · intro herr
    have hended : endedInError t := by rw [endedInError, herr]; exact errCode_range k
    obtain ⟨j, r, he, rfl⟩ := error_of_exec h hended
    exact ⟨r, errCode_injective herr ▸ he⟩
  · rintro ⟨r, he⟩
    rw [he.state_eq_of_exec h]
    rfl

/-! ### The effect of an error -/

/-- Rule R229 item 2: the result register that an error marks empty, by the opcode. -/
theorem Ends.invalidate_eq {i : Instr} {s : State} {k : ErrorKind} {r : ResultReg} (h : Ends s i (.error k r)) :
    invalidate r s = { s with
      t := if opcodeOf i = 0x3#4 ∨ opcodeOf i = 0x4#4 then none else s.t,
      w := if opcodeOf i = 0x6#4 ∨ opcodeOf i = 0xB#4 then none else s.w } := by
  cases h with
  | tcParseBad a hl ht => rfl
  | tcParsesBad a ht => rfl
  | chParseBad a hp => rfl
  | ctParseBad a hp => rfl
  | ctRemoveAbsent a hf => rfl

/-- Settles O52: a response of 1 to 6 is an error ending, whose state is the old one with the result register emptied and
the response written. -/
theorem errorsArePrecise : Obligations.ErrorsArePrecise := by
  intro i s t h herr
  obtain ⟨k, r, he, rfl⟩ := error_of_exec h herr
  rw [Ending.state_error, he.invalidate_eq]
  rfl

/-! ### The effect of a refusal -/

/-- A command with the opcode and the argument of another is that other, so it ends in the same way. -/
theorem Ends.of_opcodeOf_eq {i j : Instr} {s : State} {e : Ending} (h : Ends s j e) (hop : opcodeOf i = opcodeOf j)
    (harg : i.arg = j.arg) : Ends s i e := by
  have hij : i = j := by rw [← decode_encode i, ← decode_encode j, encode, encode, hop, harg]
  exact hij ▸ h

/-- Rule R215: reason 1 is exactly a reserved opcode. -/
theorem ends_refused_opcode_iff {i : Instr} {s : State} :
    Ends s i (.refused .opcode) ↔ opcodeOf i = 0xE#4 ∨ opcodeOf i = 0xF#4 := by
  constructor
  · intro h
    cases h with
    | reservedE a => exact .inl rfl
    | reservedF a => exact .inr rfl
  · rintro (hop | hop)
    · exact (Ends.reservedE i.arg).of_opcodeOf_eq hop rfl
    · exact (Ends.reservedF i.arg).of_opcodeOf_eq hop rfl

/-- Settles O53: `ERR = 7` is a refused ending, which writes its reason's code and the rest of the response. -/
theorem refusalsWriteTheResponseOnly : Obligations.RefusalsWriteTheResponseOnly := by
  intro i s t h herr
  have hopcode := (refused_iff_ends h .opcode).trans ends_refused_opcode_iff
  obtain ⟨r, -, rfl⟩ := refused_of_exec h herr
  refine ⟨Ending.state_refused r s, (and_iff_right herr).symm.trans hopcode, ?_⟩
  cases r with
  | opcode => exact .inl rfl
  | precondition => exact .inr (.inl rfl)
  | capacity => exact .inr (.inr rfl)

end Sys2Proof.Machine
end

section
/-! The tables of spec/60_exceptions.md: the precondition refusals (rule R227), the capacity refusals (rule R226) and the error
kinds (rule R221). Each table is the list of the cases of `Ends` with that ending: a case gives its row, and a row's guards
give the case. -/

namespace Sys2Proof.Machine

open Sys2Proof.Statements (FourLetters NoMatch Over)

/-! ### Preconditions -/

/-- Rule R227. -/
theorem ends_refused_precondition_iff {i : Instr} {s : State} :
    Ends s i (.refused .precondition) ↔
      (opcodeOf i = 0x3#4 ∧ (span s).length < 4) ∨
      (opcodeOf i = 0x5#4 ∧ (s.t = none ∨ 2 ^ 32 - 1 < (span s).length)) ∨
      (opcodeOf i = 0x7#4 ∧ s.w = none) ∨ (opcodeOf i = 0x9#4 ∧ s.w = none) ∨
      (opcodeOf i = 0xC#4 ∧ s.cs.length ≤ i.arg.toNat) := by
  constructor
  · intro h
    cases h with
    | tcParseShort a hl => exact .inl ⟨rfl, hl⟩
    | chNewNone a ht => exact .inr (.inl ⟨rfl, ht⟩)
    | chSerEmpty a hw => exact .inr (.inr (.inl ⟨rfl, hw⟩))
    | ctAppendEmpty a hw => exact .inr (.inr (.inr (.inl ⟨rfl, hw⟩)))
    | ctGetPast a hg => exact .inr (.inr (.inr (.inr ⟨rfl, List.getElem?_eq_none_iff.1 hg⟩)))
  · rintro (⟨hop, hl⟩ | ⟨hop, ht⟩ | ⟨hop, hw⟩ | ⟨hop, hw⟩ | ⟨hop, hpast⟩)
    · exact (Ends.tcParseShort i.arg hl).of_opcodeOf_eq hop rfl
    · exact (Ends.chNewNone i.arg ht).of_opcodeOf_eq hop rfl
    · exact (Ends.chSerEmpty i.arg hw).of_opcodeOf_eq hop rfl
    · exact (Ends.ctAppendEmpty i.arg hw).of_opcodeOf_eq hop rfl
    · exact (Ends.ctGetPast i.arg (List.getElem?_eq_none_iff.2 hpast)).of_opcodeOf_eq hop rfl

/-- Settles O54: reason 2 is the ending refused for a precondition. -/
theorem preconditionRefusalsAreTheTable : Obligations.PreconditionRefusalsAreTheTable := fun _ _ _ h =>
  (refused_iff_ends h .precondition).trans ends_refused_precondition_iff

/-! ### Capacities -/

/-- Rule R226, with the sums as the statements write them. -/
theorem ends_refused_capacity_iff {i : Instr} {s : State} :
    Ends s i (.refused .capacity) ↔
      (opcodeOf i = 0x5#4 ∧ s.t ≠ none ∧ (span s).length ≤ 2 ^ 32 - 1 ∧ s.cfg.capData < (span s).length) ∨
      (opcodeOf i = 0x6#4 ∧ ∃ c n, parseChunk (span s) = .ok (c, n) ∧ s.cfg.capData < c.data.length) ∨
      (opcodeOf i = 0x7#4 ∧ ∃ c, s.w = some c ∧ Over (12 + c.data.length) s.cfg.capBuf) ∨
      (opcodeOf i = 0x8#4 ∧ ∃ l, parseContainer (span s) = .ok l ∧
        (Over l.length s.cfg.capChunks ∨ (∃ c ∈ l, s.cfg.capData < c.data.length) ∨
          Over (l.map fun c => c.data.length).sum s.cfg.capStore)) ∨
      (opcodeOf i = 0x9#4 ∧ ∃ c, s.w = some c ∧ (Over (s.cs.length + 1) s.cfg.capChunks ∨
        Over ((s.cs.map fun c => c.data.length).sum + c.data.length) s.cfg.capStore)) ∨
      (opcodeOf i = 0xD#4 ∧ Over (8 + (s.cs.map fun c => 12 + c.data.length).sum) s.cfg.capBuf) := by
  simp only [← serContainer_length, ← storeOverflow_eq_true_iff_over]
  simp only [← exceeds_eq_true_iff_over]
  constructor
  · intro h
    cases h with
    | chNewCap a ht hl hc => exact .inl ⟨rfl, ht ▸ Option.some_ne_none _, hl, hc⟩
    | chParseCap a hp hc => exact .inr (.inl ⟨rfl, _, _, hp, hc⟩)
    | chSerCap a hw hc => exact .inr (.inr (.inl ⟨rfl, _, hw, hc⟩))
    | ctParseCap a hp hc => exact .inr (.inr (.inr (.inl ⟨rfl, _, hp, hc⟩)))
    | ctAppendCap a hw hc => exact .inr (.inr (.inr (.inr (.inl ⟨rfl, _, hw, hc⟩))))
    | ctSerCap a hc => exact .inr (.inr (.inr (.inr (.inr ⟨rfl, hc⟩))))
  · rintro (⟨hop, ht, hl, hc⟩ | ⟨hop, c, n, hp, hc⟩ | ⟨hop, c, hw, hc⟩ | ⟨hop, l, hp, hc⟩ | ⟨hop, c, hw, hc⟩ | ⟨hop, hc⟩)
    · obtain ⟨u, hu⟩ := Option.ne_none_iff_exists'.1 ht
      exact (Ends.chNewCap i.arg hu hl hc).of_opcodeOf_eq hop rfl
    · exact (Ends.chParseCap i.arg hp hc).of_opcodeOf_eq hop rfl
    · exact (Ends.chSerCap i.arg hw hc).of_opcodeOf_eq hop rfl
    · exact (Ends.ctParseCap i.arg hp hc).of_opcodeOf_eq hop rfl
    · exact (Ends.ctAppendCap i.arg hw hc).of_opcodeOf_eq hop rfl
    · exact (Ends.ctSerCap i.arg hc).of_opcodeOf_eq hop rfl

/-- Rules R8, R28: the document-faithful store holds every container that parses. -/
theorem storeOverflow_docFaithful {b : List Byte} {l : List Chunk} (hp : parseContainer b = .ok l) :
    storeOverflow Config.docFaithful l = false := by
  obtain ⟨-, hgood⟩ := serContainer_of_parseContainer hp
  refine storeOverflow_eq_false.2 ⟨exceeds_unbounded _, fun c hc => ?_, exceeds_unbounded _⟩
  obtain ⟨-, -, hlen⟩ := hgood c hc
  exact hlen

/-- Rule R8: with the document-faithful parameters no command is refused for capacity: three capacities are unbounded, and
`CAP_DATA` is what the length field can say. -/
theorem not_ends_refused_capacity_of_docFaithful {i : Instr} {s : State} (hcfg : s.cfg = Config.docFaithful) :
    ¬ Ends s i (.refused .capacity) := by
  intro h
  cases h with
  | chNewCap a ht hl hc => rw [hcfg] at hc; exact absurd hc (Nat.not_lt.2 hl)
  | chParseCap a hp hc => rw [hcfg] at hc; exact absurd hc (Nat.not_lt.2 (parseChunk_data_le hp))
  | chSerCap a hw hc => rw [hcfg] at hc; cases hc
  | ctParseCap a hp hc => rw [hcfg, storeOverflow_docFaithful hp] at hc; cases hc
  | ctAppendCap a hw hc => rw [hcfg] at hc; rcases hc with hc | hc <;> cases hc
  | ctSerCap a hc => rw [hcfg] at hc; cases hc

/-- Settles O55: reason 3 is the ending refused for a capacity. -/
theorem capacityRefusalsAreTheTable : Obligations.CapacityRefusalsAreTheTable := fun _ _ _ h =>
  ⟨(refused_iff_ends h .capacity).trans ends_refused_capacity_iff, fun hcfg hresp =>
    not_ends_refused_capacity_of_docFaithful hcfg ((refused_iff_ends h .capacity).1 hresp)⟩

/-! ### Error kinds -/

/-- Rule R148: four bytes or more whose first four are not all letters. -/
theorem take_four_not_typeCode_iff {b : List Byte} :
    (∃ u r, b = typeBytes u ++ r ∧ ¬ FourLetters u) ↔ 4 ≤ b.length ∧ typeOfBytes (b.take 4) = none := by
  constructor
  · rintro ⟨u, r, hb, hu⟩
    exact ⟨four_le_length_of_append hb, take_four_of_append hb ▸ typeOfBytes_of_not_fourLetters hu⟩
  · rintro ⟨hl, hnone⟩
    match b, hl with
    | b0 :: b1 :: b2 :: b3 :: r, _ => exact ⟨⟨b0, b1, b2, b3⟩, r, rfl, typeOfBytes_eq_none_iff.1 hnone _ rfl⟩

/-- Rule R221, the table for any kind: the type-code commands and `CT.REMOVE` raise one kind each, the parse commands what
their parse gives. -/
theorem ends_error_iff {i : Instr} {s : State} {k : ErrorKind} :
    (∃ r, Ends s i (.error k r)) ↔
      (opcodeOf i = 0x3#4 ∧ k = .invalidTypeCode ∧ ∃ u r, span s = typeBytes u ++ r ∧ ¬ FourLetters u) ∨
      (opcodeOf i = 0x4#4 ∧ k = .invalidTypeCode ∧ ∀ u, span s = typeBytes u → ¬ FourLetters u) ∨
      (opcodeOf i = 0x6#4 ∧ parseChunk (span s) = .error k) ∨
      (opcodeOf i = 0x8#4 ∧ parseContainer (span s) = .error k) ∨
      (opcodeOf i = 0xB#4 ∧ k = .notFound ∧ NoMatch s.cs (span s)) := by
  simp only [take_four_not_typeCode_iff, ← typeOfBytes_eq_none_iff, ← findFirst_eq_none_iff]
  constructor
  · rintro ⟨r, h⟩
    cases h with
    | tcParseBad a hl ht => exact .inl ⟨rfl, rfl, hl, ht⟩
    | tcParsesBad a ht => exact .inr (.inl ⟨rfl, rfl, ht⟩)
    | chParseBad a hp => exact .inr (.inr (.inl ⟨rfl, hp⟩))
    | ctParseBad a hp => exact .inr (.inr (.inr (.inl ⟨rfl, hp⟩)))
    | ctRemoveAbsent a hf => exact .inr (.inr (.inr (.inr ⟨rfl, rfl, hf⟩)))
  · rintro (⟨hop, rfl, hl, ht⟩ | ⟨hop, rfl, ht⟩ | ⟨hop, hp⟩ | ⟨hop, hp⟩ | ⟨hop, rfl, hf⟩)
    · exact ⟨_, (Ends.tcParseBad i.arg hl ht).of_opcodeOf_eq hop rfl⟩
    · exact ⟨_, (Ends.tcParsesBad i.arg ht).of_opcodeOf_eq hop rfl⟩
    · exact ⟨_, (Ends.chParseBad i.arg hp).of_opcodeOf_eq hop rfl⟩
    · exact ⟨_, (Ends.ctParseBad i.arg hp).of_opcodeOf_eq hop rfl⟩
    · exact ⟨_, (Ends.ctRemoveAbsent i.arg hf).of_opcodeOf_eq hop rfl⟩

theorem parseChunk_ne_error {s : List Byte} {k : ErrorKind} (h : k ∉ [.truncated, .invalidTypeCode, .checksumMismatch]) :
    parseChunk s ≠ .error k := mt parseChunk_error_mem h

theorem parseContainer_ne_error {s : List Byte} {k : ErrorKind}
    (h : k ∉ [.badSignature, .truncated, .invalidTypeCode, .checksumMismatch]) : parseContainer s ≠ .error k :=
  mt parseContainer_error_mem h

/-- Rule R181 step 1: a bad signature is what the first eight bytes show, and no frame after them gives this kind. -/
theorem parseContainer_badSignature_iff {s : List Byte} :
    parseContainer s = .error .badSignature ↔ s.length < 8 ∨ s.take 8 ≠ sig := by
  refine ⟨fun h => ?_, parseContainer_of_bad_signature⟩
  by_contra hsig
  push Not at hsig
  rw [← List.take_append_drop 8 s, hsig.2, parseContainer_sig_append] at h
  obtain ⟨x, hx⟩ := parseChunk_of_parseFrames_error h
  exact parseChunk_ne_error (by decide) hx

/-- Settles O56: the table, kind by kind; a kind that a parse cannot give leaves no row of the parse. -/
theorem errorCodesAreRaisedAsTabled : Obligations.ErrorCodesAreRaisedAsTabled := by
  intro i s t h
  have htable (k : ErrorKind) := (err_iff_ends h k).trans ends_error_iff
  refine ⟨(htable .invalidTypeCode).trans ?_, (htable .truncated).trans ?_, (htable .checksumMismatch).trans ?_,
    (htable .invalidEncoding).not.2 ?_, (htable .badSignature).trans ?_, (htable .notFound).trans ?_⟩
  · simp
  · simp
  · simp
  · simp [parseChunk_ne_error, parseContainer_ne_error]
  · simp [parseChunk_ne_error, parseContainer_badSignature_iff]
  · simp [parseChunk_ne_error, parseContainer_ne_error]

end Sys2Proof.Machine
end

section
/-! Reset, idle and the hazards of the cursor (spec/70_reset_and_hazards.md rules R250, R251, R260): the steps `rst` and idle,
the reset values, the commands on an empty span, and the same command again after an error. -/

namespace Sys2Proof.Machine

/-! ### Reset and idle -/

theorem step_of_reset {s : State} {rest : List HostAction} (h : s.pending = .reset :: rest) :
    step s = .next (setPending rest (State.resetWith s.cfg)) := by rw [step, takeAction_cons h]; rfl

theorem step_of_nothing {s : State} (h : s.pending = []) : step s = .next s := by rw [step, takeAction_nil h]; rfl

/-- Settles O12: the steps of the action `reset` and of an empty list of actions. -/
theorem resetAndIdleSteps : Obligations.ResetAndIdleSteps := ⟨fun _ _ => step_of_reset, fun _ => step_of_nothing⟩

/-- Rule R27: with `WV = 0` the views of `W` read zero. -/
theorem workViews_none {s : State} (h : s.w = none) :
    wv s = false ∧ wLen s = 0#32 ∧ wType s = 0#32 ∧ wCrc s = 0#32 ∧ ∀ j, wData j s = 0#8 := by
  refine ⟨?_, ?_, ?_, ?_, wData_none h⟩
  · rw [wv, h]; rfl
  · rw [wLen, h]
  · rw [wType, h]
  · rw [wCrc, h]

/-- Settles O5: `CRCOUT` is the start value complemented, and the views of an empty `T`, `W` and `OB` read zero. -/
theorem resetLeavesTheSpecsValues : Obligations.ResetLeavesTheSpecsValues := by
  intro s hs
  have hreset : ∃ c, s = State.resetWith c := hs.elim (fun h => ⟨Config.docFaithful, h⟩) id
  obtain ⟨c, rfl⟩ := hreset
  have ⟨hviewsT, _⟩ := typeViewsShowTheCode
  obtain ⟨htv, htcode, hprop⟩ := hviewsT (State.resetWith c) rfl
  obtain ⟨hwv, hlen, htype, hcrc, hdata⟩ := workViews_none (s := State.resetWith c) rfl
  exact ⟨rfl, BitVec.xor_self, htv, hwv, rfl, rfl, rfl, rfl, rfl, rfl, rfl, rfl, rfl, rfl, rfl,
    htcode, hprop, hlen, htype, hcrc, hdata, fun i => outByte_of_length_le (Nat.zero_le i)⟩

/-! ### The commands on an empty span -/

section EmptySpan

variable {s : State}

/-- Rule R188: no type code is the empty string, so no chunk matches it. -/
theorem findFirst_at_end (h : s.cur = s.ib.length) : findFirst s.cs (span s) = none := by
  rw [span_eq_nil h.ge]
  exact findFirst_eq_none_iff.2 fun _ _ => List.cons_ne_nil _ _

/-- Rule R189, where `CUR <- IBLEN` changes nothing. -/
theorem exec_ctFind_at_end (a : Word) (h : s.cur = s.ib.length) :
    exec (.ctFind a) s = .next { s with w := none, err := 0#3, rsn := 0#2, found := false } := by
  rw [(Ends.ctFindAbsent a (findFirst_at_end h)).exec_eq, ← h]
  rfl

/-- Rule R163, where `CUR <- IBLEN` changes nothing; no capacity is below an empty operand. -/
theorem exec_chNew_at_end (a : Word) (h : s.cur = s.ib.length) {t : TypeCode} (ht : s.t = some t) :
    exec (.chNew a) s = .next { s with
      w := some ⟨t, [], crc32 (typeBytes t)⟩, err := 0#3, rsn := 0#2, found := false } := by
  have hspan := span_eq_nil h.ge
  have hlen : (span s).length = 0 := by rw [hspan]; rfl
  rw [(Ends.chNew a ht (by omega) (by omega)).exec_eq, hspan, mkChunk, List.append_nil, ← h]
  rfl

/-- Rule R128, where `CUR <- IBLEN` changes nothing; nothing is absorbed. -/
theorem exec_crcUpd_at_end (a : Word) (h : s.cur = s.ib.length) :
    exec (.crcUpd a) s = .next { s with err := 0#3, rsn := 0#2, found := false } := by
  rw [(Ends.crcUpd a).exec_eq, span_eq_nil h.ge, ← h]
  rfl

end EmptySpan

/-! ### The same command again -/

/-- Each piece of state is overwritten with a value or left, so the same ending a second time changes nothing. -/
theorem Ending.state_state (e : Ending) (s : State) : e.state (e.state s) = e.state s := by
  have hagain {α : Type} (o : Option α) (x : α) : o.getD (o.getD x) = o.getD x := by cases o <;> rfl
  simp [state, Writes.apply, setResponse, hagain]

/-- Rules R54, R229: an error or a refusal writes nothing that the command reads. -/
theorem Ends.sameReads_of_err_ne_zero {i : Instr} {s : State} {e : Ending} (h : Ends s i e) (herr : e.err ≠ 0#3) :
    SameReads i s (e.state s) := by
  obtain ⟨-, hcs, hcrc⟩ := Ending.writes_of_err_ne_zero herr
  have hcur := Ending.writes_cur_of_err_ne_zero herr
  obtain ⟨-, ht, hw, -⟩ := h.writes_table
  have hworkRows : ∀ op ∈ [0x7#4, 0x9#4], op ∉ [0x5#4, 0x6#4, 0xA#4, 0xB#4, 0xC#4] := by decide
  refine ⟨rfl, fun _ => ?_, fun hi => ?_, fun hi => ?_, fun _ => ?_, fun _ => rfl, fun _ => ?_⟩
  · simp [hcrc]
  · simp [ht (by rw [hi]; decide)]
  · simp [hw (hworkRows _ hi)]
  · simp [hcs]
  · simp [hcur]

/-- Rule R260: a command that did not end ok, issued again, ends in the same way and so leaves the same state. -/
theorem exec_again_of_err_ne_zero {i : Instr} {s t : State} (h : exec i s = .next t) (herr : t.err ≠ 0#3) :
    exec i t = .next t := by
  obtain ⟨e, he, rfl⟩ := ends_of_exec h
  rw [(he.of_sameReads (he.sameReads_of_err_ne_zero herr)).exec_eq, Ending.state_state]

/-- Rule R54: after a command that consumes the span and ends ok, the span is empty. -/
theorem cur_eq_ib_length_of_exec_ok {i : Instr} {s t : State} (h : exec i s = .next t) (herr : t.err = 0#3)
    (hi : opcodeOf i ∈ [0x2#4, 0x4#4, 0x5#4, 0x8#4, 0xA#4, 0xB#4]) : t.cur = t.ib.length := by
  obtain ⟨f, u, he, rfl⟩ := done_of_exec h herr
  obtain ⟨hwhole, -⟩ := he.done_cur
  exact Ending.state_cur_of_writes (hwhole hi)

/-- Rule R54: after a command that did not end ok, the cursor stands where it stood. -/
theorem cur_eq_of_exec_err_ne_zero {i : Instr} {s t : State} (h : exec i s = .next t) (herr : t.err ≠ 0#3) :
    t.cur = s.cur := by
  obtain ⟨e, -, rfl⟩ := ends_of_exec h
  rw [Ending.state_cur, Ending.writes_cur_of_err_ne_zero herr, Option.getD_none]

/-- Settles O58: the guards of `Ends` on the empty string, the cursor that an ok ending writes, and an error that writes
nothing its command reads. -/
theorem emptySpanAndRepeatedErrors : Obligations.EmptySpanAndRepeatedErrors := by
  refine ⟨fun s h => ?_, fun i s t hx herr hi => cur_eq_ib_length_of_exec_ok hx herr hi, fun i s t hx hended => ?_⟩
  · have hspan := span_eq_nil h.ge
    have hcode : typeOfBytes (span s) = none := by rw [hspan]; rfl
    have hsig : parseContainer (span s) = .error .badSignature := parseContainer_of_bad_signature (.inl (by simp [hspan]))
    have hframe : parseChunk (span s) = .error .truncated := parseChunk_of_length_lt (by simp [hspan])
    exact ⟨exec_ctFind_at_end 0#32 h, (Ends.ctRemoveAbsent 0#32 (findFirst_at_end h)).exec_eq,
      (Ends.tcParsesBad 0#32 hcode).exec_eq, fun _ => exec_chNew_at_end 0#32 h, (Ends.ctParseBad 0#32 hsig).exec_eq,
      (Ends.chParseBad 0#32 hframe).exec_eq, exec_crcUpd_at_end 0#32 h,
      (Ends.tcParseShort 0#32 (by simp [hspan])).exec_eq⟩
  · have ⟨h0, _⟩ := hended
    have hcur := cur_eq_of_exec_err_ne_zero hx h0
    obtain ⟨e, -, rfl⟩ := ends_of_exec hx
    exact ⟨hcur, e.state_ib s, exec_again_of_err_ne_zero hx h0⟩

end Sys2Proof.Machine
end

section
/-! The command words of the test vectors (spec/95_test_vectors.md sections 6 and 8). -/

namespace Sys2Proof.Machine

/-- Settles O3: each word is the encoding of the command named beside it, and a command is read back from its encoding. -/
theorem sampleCommandWordsDecode : Obligations.SampleCommandWordsDecode :=
  ⟨decode_encode (.nop 0#32), decode_encode (.nop 0xDEADBEEF#32), decode_encode (.chNew 0xFFFFFFFF#32),
    decode_encode (.ctGet 2#32), decode_encode (.ctGet 0xFFFFFFFF#32), decode_encode (.reservedE 0#32),
    decode_encode (.reservedF 0x12345678#32), decode_encode (.ctParse 0#32)⟩

end Sys2Proof.Machine
end
